-- ==== Sys2Proof/Word.lean ====
section
/-! DEFINITION. The word types of the block: one element of `storage`, one command word, one
response word (spec/00_scope.md R8; spec/30_encoding.md R71, R77). -/

namespace Sys2Proof

/-- One element of `storage` (R8: `BW = 8`). -/
abbrev Byte := BitVec 8

/-- One command word `CW[39:0]` (R71: there is one command length). -/
abbrev CmdWord := BitVec 40

/-- One response word `RESP[8:0]` (R77). -/
abbrev RespWord := BitVec 9

end Sys2Proof
end

