-- ==== Sys2Proof/Syntax.lean ====
section
/-! DEFINITION. What the agents can ask for: the eight encoded commands (spec/30_encoding.md R70, R76),
the print calls that expand into EMITs (spec/44_host_sequences.md), the two ports (R78) and the turns of
the agents (spec/00_scope.md R13, spec/30_encoding.md R84). -/

namespace Sys2Proof

/-- The eight encoded commands, one constructor per row of the opcode table (R76). -/
inductive Instr where
  /-- INIT, R91. -/
  | init
  /-- IS_EMPTY, R92. -/
  | isEmpty
  /-- IS_FULL, R93. -/
  | isFull
  /-- PUT DATA, R94. -/
  | put (data : Byte)
  /-- GET, R95. -/
  | get
  /-- BEGIN IMM32, R111: the baud rate, a signed 32-bit number (R75; WellFormed.lean states the range). -/
  | begin (baud : Int)
  /-- EMIT DATA, R112. -/
  | emit (data : Byte)
  /-- DRAIN, R115. -/
  | drain
  deriving DecidableEq, Repr

/-- The two command ports (R78): the producer's and the consumer's. -/
inductive Port where
  /-- The P port, the caller context. -/
  | p
  /-- The C port, the interrupt context. -/
  | c
  deriving DecidableEq, Repr

/-- The six print helpers of the caller context, software that only issues EMITs (R5, R183). -/
inductive Call where
  /-- PRINT, R176. -/
  | print (text : List Byte)
  /-- PRINTLN, R177. -/
  | println (text : List Byte)
  /-- PRINT_INT, R178: a signed 32-bit number (WellFormed.lean; log 28 for any other). -/
  | printInt (value : Int)
  /-- PRINT_INT_LN, R179. -/
  | printIntLn (value : Int)
  /-- PRINT_FLOAT, R180: the operand's binary32 word and a uint8. -/
  | printFloat (value : BitVec 32) (places : Byte)
  /-- PRINT_FLOAT_LN, R181. -/
  | printFloatLn (value : BitVec 32) (places : Byte)
  deriving DecidableEq, Repr

/-- One thing the caller context has still to do: a command word, or a print call (R83). -/
inductive Request where
  | word (w : CmdWord)
  | call (c : Call)
  deriving DecidableEq, Repr

/-- Whose step is next (R13, R84). -/
inductive Turn where
  /-- Agent P issues its next request. -/
  | producer
  /-- The next word of the C port is issued (GET, the flag reads, or a DRAIN injected by a test bench). -/
  | consumer
  /-- Agent Cn takes the drain event of the device, if it is enabled (R116). -/
  | drain
  /-- Agent DEV finishes a byte (R164). -/
  | txDone
  /-- One edge of the head synchroniser (R136). -/
  | syncH
  /-- One edge of the tail synchroniser (R137). -/
  | syncT
  deriving DecidableEq, Repr, Inhabited

end Sys2Proof
end

