-- ==== Sys2Proof/Config.lean ====
section
/-! DEFINITION. The instance's parameters (spec/00_scope.md R7 to R11) and the one free value of the
model, the schedule past the part that is settled (R14, R232). -/

namespace Sys2Proof

/-- The parameters of one instance, all of them open in the spec. A state carries them (log 1), so
that every definition is a function of them and every statement about all states is about all instances. -/
structure Config where
  /-- Capacity, the number of slots (R7). -/
  C : Nat
  /-- Synchroniser stages between the two sides; 0 is the behaviour of the source (R9). -/
  S : Nat
  /-- Reference clock in hertz, "a positive integer" (R10). -/
  fClk : PNat
  /-- The interrupt enable at the start of a run (R11). -/
  gieInit : Bool
  deriving DecidableEq, Repr

/-- The parameters that `State.reset` takes: R7's default capacity, R9's normative S, and
DESIGN CHOICE (log 2, unsafe) for the two the spec leaves open. -/
def Config.standard : Config where
  C := 100
  S := 0
  fClk := 16000000
  gieInit := true

/-- FREE VALUE (log 5, safe). Which agent steps next, once the turns settled in the state are used up:
"any enabled agent may step next" (R13), so nothing constrains it. -/
opaque Config.freeTurn : Nat → Turn

end Sys2Proof
end

