-- ==== Sys2Proof/Machine/State.lean ====
section
/-! DEFINITION. The state of one instance of the block with the transmitter device as the block sees it
(spec/10_state.md R20 to R43, spec/42_cdc_sync.md R135, spec/43_transmitter_device.md R162), the power-on
state (R38, R220), and the reasons a step can stop (spec/60_exceptions.md R199). -/

namespace Sys2Proof.Machine

/-- The storage: the slots that hold a value, addresses strictly rising. A slot that is not listed has
no value (R38, R39; log 4). -/
abbrev Memory := List Host.Cell

/-- The ghost events of R36. -/
inductive Event where
  | arm
  | disarm
  | put (b : Byte)
  | drop (b : Byte)
  | get (b : Byte)
  | txWrite (b : Byte)
  | init
  deriving DecidableEq, Repr

/-- The device's frame format (R35, R167). -/
structure FrameFormat where
  dataBits : Nat
  parity : Bool
  stopBits : Nat
  doubleRate : Bool
  deriving DecidableEq, Repr

/-- "8 data bits, no parity, 1 stop bit, double-rate sampling mode" (R167). -/
def FrameFormat.eightN1 : FrameFormat where
  dataBits := 8
  parity := false
  stopBits := 1
  doubleRate := true

/-- Everything the spec gives one instance. `none` in a register is the spec's own "no value" (R39, log 3).
Cursors and synchroniser words are naturals; that they fit PW bits is an invariant (log 9). -/
structure State where
  /-- The instance's parameters (R14); no step writes them (log 1). -/
  cfg : Config
  /-- `storage` (R22). -/
  storage : Memory
  /-- The producer-owned write cursor (R23). -/
  head : Option Nat
  /-- The consumer-owned read cursor (R23). -/
  tail : Option Nat
  /-- The notification flag (R31). -/
  armed : Bool
  /-- The output register is free (R33). -/
  txfree : Bool
  /-- The output register (R33). -/
  txreg : Option Byte
  /-- The platform's global interrupt enable (R34). -/
  gie : Bool
  /-- Transmitter enabled (R35). -/
  txen : Bool
  /-- Bit-rate divisor (R35, R166). -/
  divisor : Option Int
  /-- Frame format (R35), the same constant in every reachable state (log 11). -/
  frame : FrameFormat
  /-- The head synchroniser `hs[1], …, hs[S]`, sampling stage first (R135). -/
  hs : List (Option Nat)
  /-- The tail synchroniser `ts[1], …, ts[S]`, sampling stage first (R135). -/
  ts : List (Option Nat)
  /-- Ghost: the bytes the device has finished sending, oldest first (R36). -/
  line : List Byte
  /-- Ghost: the events, oldest first (R36). -/
  trace : List Event
  /-- The response of the last command performed (R16, R77; log 8). -/
  resp : Option RespWord
  /-- The port on which the command being executed was issued (R78; log 8). -/
  issuer : Port
  /-- Input: what the caller context has still to issue, oldest first (R21; log 6). -/
  pq : List Request
  /-- Input: the words still to be issued on the C port, oldest first (R21, R84; log 6). -/
  cq : List CmdWord
  /-- Input: the turns already settled, next first (R14; log 5). -/
  sched : List Turn
  /-- The model's own: the argument of the next free turn (log 5). -/
  tick : Nat
  deriving DecidableEq, Repr

/-- Why the machine stops. All three are safe: no claim about a next state holds of such a run. -/
inductive Fault where
  /-- Raised by a rule that reads a cursor, slot, register or stage with no value (R39, R90, R199). Safe. -/
  | uninitUse
  /-- Raised by an access to a slot index outside 0 to C-1, which no run reaches (R52; log 10). Safe. -/
  | noSlot
  /-- Raised by decoding a synchroniser word outside the code, which no run reaches (R133, V8; log 10). Safe. -/
  | badGrayWord
  deriving DecidableEq, Repr

/-- Why a step is refused (R17, R199). All are safe: nothing is claimed of such a run. -/
inductive Refusal where
  /-- The dispatcher has no meaning for the instruction. Safe. -/
  | notModelled (mnemonic : String)
  /-- Raised by issuing a word that no row of the opcode map matches (R79). Safe. -/
  | reservedEncoding
  /-- Raised by a command on a port that does not accept it (R78). Safe. -/
  | wrongPort
  /-- Raised by BEGIN with a baud rate of zero or less (R111). Safe. -/
  | badBaud
  /-- Raised by every step of an instance whose capacity the spec refuses (R7, R131; log 12). Safe. -/
  | badCapacity
  /-- Raised by PRINT_FLOAT of NaN, an infinity or a magnitude of 2^31 or more (R184). Safe. -/
  | floatRange
  deriving DecidableEq, Repr

/-- The outcome of a step or of a command on this machine. -/
abbrev Result := Host.Outcome State Fault Refusal

/-- The power-on state of an instance (R38, R220): no value in `storage`, `head`, `tail`, `txreg`,
`divisor` and the synchroniser stages, `armed = 0`, `txfree = 1`, `txen = 0`, `gie = GIE_INIT`, ghosts
empty. The model's own fields start empty, the issuing port at P (R222; log 5, log 6, log 8). -/
def State.powerOn (c : Config) : State where
  cfg := c
  storage := []
  head := none
  tail := none
  armed := false
  txfree := true
  txreg := none
  gie := c.gieInit
  txen := false
  divisor := none
  frame := .eightN1
  hs := List.replicate c.S none
  ts := List.replicate c.S none
  line := []
  trace := []
  resp := none
  issuer := .p
  pq := []
  cq := []
  sched := []
  tick := 0

/-- The machine right after power-on, with the standard parameters (R220; log 2). -/
def State.reset : State := .powerOn .standard

end Sys2Proof.Machine
end

