-- ==== Sys2Proof/Machine/Ops.lean ====
section
/-! DEFINITION. The named operations: memory by slot (spec/20_memory.md R50), the updates `r <- v` of
the rules (spec/00_scope.md R16), the device's operations (spec/43_transmitter_device.md R161), the instance
check (R7, R131), entering the interrupt context (spec/60_exceptions.md R204).

The block raises no exception (R195), so there is no exception entry and no return to model; the drain
event is the one interrupt, and its entry and return change no state of the block (R204, R205; log 20). -/

namespace Sys2Proof.Machine

/-! ### Memory -/

/-- The byte in a slot, or none if the slot has no value (R39). -/
def Memory.read : Memory → Nat → Option Byte
  | [], _ => none
  | (k, v) :: m, a => if k = a then some v else Memory.read m a

/-- Store a byte in a slot, keeping the addresses strictly rising. -/
def Memory.write : Memory → Nat → Byte → Memory
  | [], a, b => [(a, b)]
  | (k, v) :: m, a, b =>
    if a < k then (a, b) :: (k, v) :: m
    else if a = k then (a, b) :: m
    else (k, v) :: Memory.write m a b

/-- Is every listed address above `a`, the first one at least? -/
def Memory.startsAbove (a : Nat) : Memory → Bool
  | [] => true
  | (k, _) :: _ => decide (a < k)

/-- The canonical form: addresses strictly rising (an unlisted slot has no value, so every listed
entry differs from what an unlisted one reads as). -/
def Memory.wf : Memory → Bool
  | [] => true
  | (k, _) :: m => Memory.startsAbove k m && Memory.wf m

/-- Every listed address is a slot of an instance of capacity `C` (R50). -/
def Memory.within (C : Nat) (m : Memory) : Bool := m.all (fun cell => decide (cell.1 < C))

/-! ### Updates of the state, one per `r <- v` of the rules -/

/-- `storage <- m`. -/
def State.setStorage (s : State) (m : Memory) : State := { s with storage := m }

/-- `head <- h` (R23). -/
def State.setHead (s : State) (h : Nat) : State := { s with head := some h }

/-- `tail <- t` (R23). -/
def State.setTail (s : State) (t : Nat) : State := { s with tail := some t }

/-- `armed <- b` (R31). -/
def State.setArmed (s : State) (b : Bool) : State := { s with armed := b }

/-- `gie <- b` (R34). -/
def State.setGie (s : State) (b : Bool) : State := { s with gie := b }

/-- The device's `configure(bit_rate_divisor, frame_format)` (R161, R111). -/
def State.configure (s : State) (d : Int) (f : FrameFormat) : State :=
  { s with divisor := some d, frame := f }

/-- The device's `enable_transmitter()` (R161, R111). -/
def State.enableTransmitter (s : State) : State := { s with txen := true }

/-- The device's `write_output_register(byte)`: `txreg <- byte ; txfree <- 0` (R165; log 23). -/
def State.writeOutputRegister (s : State) (b : Byte) : State :=
  { s with txreg := some b, txfree := false }

/-- `line <- line ++ [b] ; txfree <- 1` (R164). -/
def State.finishByte (s : State) (b : Byte) : State :=
  { s with line := s.line ++ [b], txfree := true }

/-- The head synchroniser's stages (R135). -/
def State.setHs (s : State) (chain : List (Option Nat)) : State := { s with hs := chain }

/-- The tail synchroniser's stages (R135). -/
def State.setTs (s : State) (chain : List (Option Nat)) : State := { s with ts := chain }

/-- `trace <- trace ++ [e]` (R16). -/
def State.logEvent (s : State) (e : Event) : State := { s with trace := s.trace ++ [e] }

/-- `resp <- r` (R16, R77). -/
def State.respond (s : State) (r : RespWord) : State := { s with resp := some r }

/-- The next command is issued on a port (R78). -/
def State.issueOn (s : State) (port : Port) : State := { s with issuer := port }

/-- What the producer has still to issue. -/
def State.setPq (s : State) (q : List Request) : State := { s with pq := q }

/-- What is still to be issued on the C port. -/
def State.setCq (s : State) (q : List CmdWord) : State := { s with cq := q }

/-- The settled turns and the argument of the next free one. -/
def State.setSched (s : State) (l : List Turn) (n : Nat) : State :=
  { s with sched := l, tick := n }

/-- `arm_empty_notification()`: sets `armed` and appends `Arm`, whether or not the bit changes (R168). -/
def State.arm (s : State) : State := (s.setArmed true).logEvent .arm

/-- `disarm_empty_notification()`: clears `armed` and appends `Disarm` (R168). -/
def State.disarm (s : State) : State := (s.setArmed false).logEvent .disarm

/-- The drain event preempts the caller context: for the block, entry changes no state, only who issues
the next command (R204; log 20). The return changes none either (R205). -/
def State.enterHandler (s : State) : State := s.issueOn .c

/-! ### The instance -/

/-- The capacities the spec admits: `C ≥ 1` (R7), and `C` even when `S ≥ 1` (R131). -/
def validInstance (c : Config) : Bool := decide (1 ≤ c.C) && (c.S == 0 || c.C % 2 == 0)

end Sys2Proof.Machine
end

