-- ==== Sys2Proof/Machine/Gray.lean ====
section
/-! DEFINITION. The pointer code of the synchroniser layer (spec/42_cdc_sync.md R132, R133), on naturals
below `2^PW` (log 9), and the shift of a chain of stages (R136, R137). -/

namespace Sys2Proof.Machine

/-- `PW = max(1, ceil(log2(C)))` (R8). -/
def cursorBits (C : Nat) : Nat := if C ≤ 2 then 1 else Nat.log2 (C - 1) + 1

/-- `b2g(x) = x xor (x >> 1)` (R132). -/
def b2g (x : Nat) : Nat := x ^^^ (x >>> 1)

/-- The bits below `j` of `g2b(g)`, given the bits from `j` up: bit `k` of the result is bit `k+1` of the
result xor `g[k]` (R132). -/
def g2bFrom (g : Nat) : Nat → Nat → Nat
  | 0, above => above
  | j + 1, above => g2bFrom g j (2 * above + (above ^^^ (g >>> j)) % 2)

/-- The inverse of `b2g` on `w`-bit words: from bit `w-1` down to 0 (R132). -/
def g2b (w g : Nat) : Nat := g2bFrom g w 0

/-- `K = (2^PW − C) / 2` (R133). -/
def codeOffset (C : Nat) : Nat := (2 ^ cursorBits C - C) / 2

/-- `enc(i) = b2g(i + K)` (R133). -/
def enc (C i : Nat) : Nat := b2g (i + codeOffset C)

/-- `dec(g) = g2b(g) − K`, for the code words; not defined for other words (R133, V8; log 10). -/
def dec (C g : Nat) : Option Nat :=
  let x := g2b (cursorBits C) g
  if g < 2 ^ cursorBits C ∧ codeOffset C ≤ x ∧ x < codeOffset C + C then some (x - codeOffset C)
  else none

/-- One edge of a chain: every stage takes the one before it, the first samples `g` (R136, R137). -/
def shiftIn (g : Nat) (chain : List (Option Nat)) : List (Option Nat) := (some g :: chain).dropLast

/-- What the output stage of a chain shows (R138): the decoded word of stage S. -/
def seenThrough (C : Nat) (chain : List (Option Nat)) : Except Fault Nat :=
  match chain.getLast? with
  | some (some g) =>
    match dec C g with
    | some v => .ok v
    | none => .error .badGrayWord
  | _ => .error .uninitUse

end Sys2Proof.Machine
end

