-- ==== Sys2Proof/Machine/Flags.lean ====
section
/-! DEFINITION. Every flag and condition the block has (spec/10_state.md R41): ring arithmetic
(spec/00_scope.md R18), the empty and full flags (R25, R26), the two sides' views (R30), the drain event's
condition (spec/41_control_ops.md R116), the response word and the outcome codes (R77, R198). -/

namespace Sys2Proof.Machine

/-- `inc(i) = (i + 1) mod C` (R18). -/
def inc (C i : Nat) : Nat := (i + 1) % C

/-- `dist(a, b) = (b − a) mod C`, for cursor values (R18). -/
def dist (C a b : Nat) : Nat := (b + C - a) % C

/-- `empty(h, t) = (h == t)` (R25). -/
def emptyFlag (h t : Nat) : Bool := h == t

/-- `full(h, t) = (inc(h) == t)` (R26). -/
def fullFlag (C h t : Nat) : Bool := inc C h == t

/-- The pair `(h, t)` from which a side computes its flags: the producer view is `(head, tail_seen)`, the
consumer view `(head_seen, tail)` (R30, R138). A cursor or a stage with no value cannot be read (R39). -/
def State.view (s : State) (port : Port) : Except Fault (Nat × Nat) :=
  match s.head, s.tail with
  | some h, some t =>
    if s.cfg.S = 0 then .ok (h, t)
    else
      match port with
      | .p =>
        match seenThrough s.cfg.C s.ts with
        | .ok t' => .ok (h, t')
        | .error f => .error f
      | .c =>
        match seenThrough s.cfg.C s.hs with
        | .ok h' => .ok (h', t)
        | .error f => .error f
  | _, _ => .error .uninitUse

/-- The drain event is pending: `armed = 1 and txfree = 1` (R201). -/
def State.drainPending (s : State) : Bool := s.armed && s.txfree

/-- DRAIN is enabled: `armed = 1 and txfree = 1 and gie = 1` (R116). -/
def State.drainEnabled (s : State) : Bool := s.drainPending && s.gie

/-- `RESP = F ++ D` (R77). -/
def respWord (f : Bool) (d : Byte) : RespWord := BitVec.ofBool f ++ d

/-- `F = RESP[8]` (R77). -/
def respFlag (r : RespWord) : Bool := r.getLsbD 8

/-- `D = RESP[7:0]` (R77). -/
def respData (r : RespWord) : Byte := r.extractLsb' 0 8

/-- The outcome codes of R198. -/
inductive OutcomeCode where
  | accepted
  | dropped
  | someByte (b : Byte)
  | noByte
  | disarmed
  deriving DecidableEq, Repr

/-- The outcome code that a command's response carries (R198); the other commands carry none. -/
def outcomeCode (i : Instr) (r : RespWord) : Option OutcomeCode :=
  match i with
  | .put _ => some (if respFlag r then .accepted else .dropped)
  | .emit _ => some (if respFlag r then .accepted else .dropped)
  | .get => some (if respFlag r then .someByte (respData r) else .noByte)
  | .drain => some (if respFlag r then .someByte (respData r) else .disarmed)
  | .init => none
  | .isEmpty => none
  | .isFull => none
  | .begin _ => none

end Sys2Proof.Machine
end

