-- ==== Sys2Proof/Machine/Operands.lean ====
section
/-! DEFINITION. How a command reaches its operands: the port it is accepted on (spec/30_encoding.md
R78), the order of the checks (spec/40_ringbuffer_ops.md R90), and the two access forms of `storage`, a write at
`head` and a read at `tail`, each followed by the advance of its cursor (spec/20_memory.md R50, R57). -/

namespace Sys2Proof.Machine

/-- Which port accepts which command (R78). -/
def accepts (i : Instr) (port : Port) : Bool :=
  match i with
  | .init => port == .p
  | .begin _ => port == .p
  | .put _ => port == .p
  | .emit _ => port == .p
  | .isEmpty => true
  | .isFull => true
  | .get => port == .c
  | .drain => port == .c

/-- The checks before a command's own rule (R90): the instance (log 12), then the port. -/
def State.onPort (s : State) (i : Instr) (rule : Result) : Result :=
  if validInstance s.cfg then
    if accepts i s.issuer then rule else .refused .wrongPort
  else .refused .badCapacity

/-- The initialisation check and the issuing side's view (R90, R30). -/
def State.withView (s : State) (rule : Nat → Nat → Result) : Result :=
  match s.view s.issuer with
  | .ok (h, t) => rule h t
  | .error f => .fault f

/-- `storage[head] <- b ; head <- inc(head)`: the slot first, then the cursor (R57, R94). -/
def State.storeAtHead (s : State) (h : Nat) (b : Byte) : Except Fault State :=
  if h < s.cfg.C then
    .ok ((s.setStorage (Memory.write s.storage h b)).setHead (inc s.cfg.C h))
  else .error .noSlot

/-- `b = storage[tail] ; tail <- inc(tail)`: the slot first, then the cursor (R57, R95). -/
def State.loadAtTail (s : State) (t : Nat) : Except Fault (State × Byte) :=
  if t < s.cfg.C then
    match Memory.read s.storage t with
    | some b => .ok (s.setTail (inc s.cfg.C t), b)
    | none => .error .uninitUse
  else .error .noSlot

end Sys2Proof.Machine
end

