-- ==== Sys2Proof/Machine/Device.lean ====
section
/-! DEFINITION. The steps that no agent commands: the device's TX_DONE (spec/43_transmitter_device.md
R164) and the two synchroniser edges (spec/42_cdc_sync.md R136, R137). A turn of an agent whose step is not
enabled changes nothing (log 7). -/

namespace Sys2Proof.Machine

/-- TX_DONE, enabled iff `txfree = 0` (R164). -/
def txDone (s : State) : Result :=
  if s.txfree then .next s
  else
    match s.txreg with
    | some b => .next (s.finishByte b)
    | none => .fault .uninitUse

/-- SYNC_H, one edge of the head synchroniser, which arms on the consumer view's empty to non-empty edge
(R136, R139). Enabled only for `S ≥ 1` and once the cursors have values. -/
def syncH (s : State) : Result :=
  match s.head, s.tail with
  | some h, some t =>
    if s.cfg.S = 0 then .next s
    else
      match seenThrough s.cfg.C s.hs with
      | .error f => .fault f
      | .ok oldSeen =>
        match seenThrough s.cfg.C (shiftIn (enc s.cfg.C h) s.hs) with
        | .error f => .fault f
        | .ok newSeen =>
          let s' := s.setHs (shiftIn (enc s.cfg.C h) s.hs)
          .next (if oldSeen == t && newSeen != t then s'.arm else s')
  | _, _ => .next s

/-- SYNC_T, one edge of the tail synchroniser; it writes nothing else (R137). -/
def syncT (s : State) : Result :=
  match s.head, s.tail with
  | some _, some t =>
    if s.cfg.S = 0 then .next s
    else .next (s.setTs (shiftIn (enc s.cfg.C t) s.ts))
  | _, _ => .next s

end Sys2Proof.Machine
end

