-- ==== Sys2Proof/Machine/RingBuffer.lean ====
section
/-! DEFINITION. The five RingBuffer commands INIT, IS_EMPTY, IS_FULL, PUT, GET
(spec/40_ringbuffer_ops.md R90 to R95), over the buffer's own operations, which BEGIN, EMIT and DRAIN use too. -/

namespace Sys2Proof.Machine

/-- `RingBuffer.init()`: both cursors to 0, every synchroniser stage to `enc(0)`, event `Init` (R91, R140). -/
def State.ringInit (s : State) : State :=
  ((((s.setHead 0).setTail 0).setHs (List.replicate s.cfg.S (some (enc s.cfg.C 0)))).setTs
    (List.replicate s.cfg.S (some (enc s.cfg.C 0)))).logEvent .init

/-- `RingBuffer.put(b)` in the view `(h, t)`: dropped when full, else stored; whether it was stored (R94). -/
def State.ringPut (s : State) (h t : Nat) (b : Byte) : Except Fault (State × Bool) :=
  if fullFlag s.cfg.C h t then .ok (s.logEvent (.drop b), false)
  else
    match s.storeAtHead h b with
    | .ok s' => .ok (s'.logEvent (.put b), true)
    | .error f => .error f

/-- `RingBuffer.get()` in the view `(h, t)`: none when empty, else the byte at `tail` (R95). -/
def State.ringGet (s : State) (h t : Nat) : Except Fault (State × Option Byte) :=
  if emptyFlag h t then .ok (s, none)
  else
    match s.loadAtTail t with
    | .ok (s', b) => .ok (s'.logEvent (.get b), some b)
    | .error f => .error f

/-- INIT (R91). -/
def execInit (s : State) : Result :=
  s.onPort .init (.next (s.ringInit.respond (respWord false 0)))

/-- IS_EMPTY, answered from the issuing side's view (R92). -/
def execIsEmpty (s : State) : Result :=
  s.onPort .isEmpty (s.withView fun h t => .next (s.respond (respWord (emptyFlag h t) 0)))

/-- IS_FULL, answered from the issuing side's view (R93). -/
def execIsFull (s : State) : Result :=
  s.onPort .isFull (s.withView fun h t => .next (s.respond (respWord (fullFlag s.cfg.C h t) 0)))

/-- PUT (R94). -/
def execPut (data : Byte) (s : State) : Result :=
  s.onPort (.put data) (s.withView fun h t =>
    match s.ringPut h t data with
    | .ok (s', stored) => .next (s'.respond (respWord stored 0))
    | .error f => .fault f)

/-- GET (R95). -/
def execGet (s : State) : Result :=
  s.onPort .get (s.withView fun h t =>
    match s.ringGet h t with
    | .ok (s', some b) => .next (s'.respond (respWord true b))
    | .ok (s', none) => .next (s'.respond (respWord false 0))
    | .error f => .fault f)

end Sys2Proof.Machine
end

