-- ==== Sys2Proof/Machine/Control.lean ====
section
/-! DEFINITION. The enqueue and dequeue control logic BEGIN, EMIT, DRAIN (spec/41_control_ops.md R111
to R117). -/

namespace Sys2Proof.Machine

/-- `divisor = F_CLK / (8 * IMM32) − 1`, division rounding toward zero, on unbounded integers (R166). -/
def bitRateDivisor (fClk : Nat) (baud : Int) : Int := Int.tdiv (fClk : Int) (8 * baud) - 1

/-- BEGIN (R111): `armed` is not written (90_conflicts.md C5). -/
def execBegin (baud : Int) (s : State) : Result :=
  s.onPort (.begin baud)
    (if baud ≤ 0 then .refused .badBaud
     else
      .next ((((s.configure (bitRateDivisor s.cfg.fClk baud) .eightN1).enableTransmitter).ringInit).respond
        (respWord false 0)))

/-- EMIT (R112, R113): the empty check, the put and the conditional arming inside the critical section,
`gie` restored on every path. With `S ≥ 1` the arming is SYNC_H's (R139). -/
def execEmit (data : Byte) (s : State) : Result :=
  s.onPort (.emit data) (s.withView fun h t =>
    match (s.setGie false).ringPut h t data with
    | .ok (s', stored) =>
      let s'' := if s.cfg.S == 0 && emptyFlag h t then s'.arm else s'
      .next ((s''.setGie s.gie).respond (respWord stored 0))
    | .error f => .fault f)

/-- DRAIN, the drain handler (R115). While its condition is false it is held: nothing happens (R116; log 7). -/
def execDrain (s : State) : Result :=
  s.onPort .drain
    (if s.drainEnabled then
      s.withView fun h t =>
        match s.ringGet h t with
        | .ok (s', some b) =>
          .next (((s'.logEvent (.txWrite b)).writeOutputRegister b).respond (respWord true b))
        | .ok (s', none) => .next (s'.disarm.respond (respWord false 0))
        | .error f => .fault f
     else .next s)

end Sys2Proof.Machine
end

