-- ==== Sys2Proof/Machine/Dispatch.lean ====
section
/-! DEFINITION. One arm per command: the meaning of each (spec/30_encoding.md R76). -/

namespace Sys2Proof.Machine

def exec (i : Instr) (s : State) : Host.Outcome State Fault Refusal :=
  match i with
  | .init => Sys2Proof.Machine.execInit s
  | .isEmpty => Sys2Proof.Machine.execIsEmpty s
  | .isFull => Sys2Proof.Machine.execIsFull s
  | .put data => Sys2Proof.Machine.execPut data s
  | .get => Sys2Proof.Machine.execGet s
  | .begin baud => Sys2Proof.Machine.execBegin baud s
  | .emit data => Sys2Proof.Machine.execEmit data s
  | .drain => Sys2Proof.Machine.execDrain s

end Sys2Proof.Machine
end

