-- ==== Sys2Proof/WellFormed.lean ====
section
/-! DEFINITION. What makes a command or a print call well formed: each operand in the range its
encoding or its signature gives it (spec/30_encoding.md R75; spec/44_host_sequences.md R176, R178, R184). -/

namespace Sys2Proof

/-- A signed 32-bit number (R75, R178). -/
def isInt32 (n : Int) : Bool := decide (-2147483648 ≤ n) && decide (n ≤ 2147483647)

/-- Each operand fits its field (R72 to R75); only BEGIN's can fail to. -/
def Instr.wf : Instr → Bool
  | .init => true
  | .isEmpty => true
  | .isFull => true
  | .put _ => true
  | .get => true
  | .begin baud => isInt32 baud
  | .emit _ => true
  | .drain => true

/-- "a text cannot contain `0x00`" (R176). -/
def isText (text : List Byte) : Bool := text.all (· != 0)

/-- Neither NaN nor infinite, and of magnitude below 2^31 (R184): the exponent field is below 127 + 31. -/
def isPrintableFloat (v : BitVec 32) : Bool := decide ((v.extractLsb' 23 8).toNat < 158)

/-- Each operand of a print call is one its rule gives a meaning. -/
def Call.wf : Call → Bool
  | .print text => isText text
  | .println text => isText text
  | .printInt value => isInt32 value
  | .printIntLn value => isInt32 value
  | .printFloat value _ => isPrintableFloat value
  | .printFloatLn value _ => isPrintableFloat value

end Sys2Proof
end

