-- ==== Sys2Proof/Decode.lean ====
section
/-! DEFINITION. The decoder, total on 40-bit words and rejecting by name (spec/30_encoding.md R72 to
R79, R86), the encoder from the same formats, and the opcode map as rows of mask and match (R76). -/

namespace Sys2Proof

/-- Why a word is reserved (R79). -/
inductive Reserved where
  /-- `OP` is 0x00 or 0x09 to 0xFF. -/
  | opcode
  /-- A format-Z word with non-zero `ARG`. -/
  | argZ
  /-- A format-B word with non-zero `ARG[31:8]`. -/
  | argB
  deriving DecidableEq, Repr

/-- `OP = CW[39:32]` (R72). -/
def opField (w : CmdWord) : BitVec 8 := w.extractLsb' 32 8

/-- `ARG = CW[31:0]` (R72). -/
def argField (w : CmdWord) : BitVec 32 := w.extractLsb' 0 32

/-- Format Z: `ARG` must be zero (R73). -/
def decodeZ (i : Instr) (arg : BitVec 32) : Except Reserved Instr :=
  if arg = 0 then .ok i else .error .argZ

/-- Format B: `ARG[31:8]` must be zero, `ARG[7:0]` is the byte (R74). -/
def decodeB (f : Byte → Instr) (arg : BitVec 32) : Except Reserved Instr :=
  if arg.extractLsb' 8 24 = 0 then .ok (f (arg.extractLsb' 0 8)) else .error .argB

/-- The decode algorithm of R86. -/
def decode (w : CmdWord) : Except Reserved Instr :=
  let op := opField w
  let arg := argField w
  if op = 0x01#8 then decodeZ .init arg
  else if op = 0x02#8 then decodeZ .isEmpty arg
  else if op = 0x03#8 then decodeZ .isFull arg
  else if op = 0x04#8 then decodeB .put arg
  else if op = 0x05#8 then decodeZ .get arg
  else if op = 0x06#8 then .ok (.begin arg.toInt)
  else if op = 0x07#8 then decodeB .emit arg
  else if op = 0x08#8 then decodeZ .drain arg
  else .error .opcode

/-- `OP` of each command (R76). -/
def Instr.opcode : Instr → BitVec 8
  | .init => 0x01#8
  | .isEmpty => 0x02#8
  | .isFull => 0x03#8
  | .put _ => 0x04#8
  | .get => 0x05#8
  | .begin _ => 0x06#8
  | .emit _ => 0x07#8
  | .drain => 0x08#8

/-- `ARG` of each command (R72). -/
def Instr.arg : Instr → BitVec 32
  | .init => 0#32
  | .isEmpty => 0#32
  | .isFull => 0#32
  | .put data => 0#24 ++ data
  | .get => 0#32
  | .begin baud => BitVec.ofInt 32 baud
  | .emit data => 0#24 ++ data
  | .drain => 0#32

/-- The word of a command: `OP` in bits 39:32, `ARG` in bits 31:0 (R72). -/
def encode (i : Instr) : CmdWord := i.opcode ++ i.arg

/-- One row of the opcode map: a word selects it iff `(w and mask) == value` (R76). -/
structure OpcodeRow where
  mnemonic : String
  mask : CmdWord
  value : CmdWord
  deriving DecidableEq, Repr

/-- The opcode map of R76, with the masks of R73 to R75. -/
def opcodeTable : List OpcodeRow :=
  [⟨"INIT", 0xFFFFFFFFFF#40, 0x0100000000#40⟩,
   ⟨"IS_EMPTY", 0xFFFFFFFFFF#40, 0x0200000000#40⟩,
   ⟨"IS_FULL", 0xFFFFFFFFFF#40, 0x0300000000#40⟩,
   ⟨"PUT", 0xFFFFFFFF00#40, 0x0400000000#40⟩,
   ⟨"GET", 0xFFFFFFFFFF#40, 0x0500000000#40⟩,
   ⟨"BEGIN", 0xFF00000000#40, 0x0600000000#40⟩,
   ⟨"EMIT", 0xFFFFFFFF00#40, 0x0700000000#40⟩,
   ⟨"DRAIN", 0xFFFFFFFFFF#40, 0x0800000000#40⟩]

/-- Does a word select a row (R76)? -/
def OpcodeRow.selects (r : OpcodeRow) (w : CmdWord) : Bool := (w &&& r.mask) == r.value

/-- The table's name of a command. -/
def Instr.mnemonic : Instr → String
  | .init => "INIT"
  | .isEmpty => "IS_EMPTY"
  | .isFull => "IS_FULL"
  | .put _ => "PUT"
  | .get => "GET"
  | .begin _ => "BEGIN"
  | .emit _ => "EMIT"
  | .drain => "DRAIN"

/-- The command that the decoder reads from a row's bits, numbered as the opcode table numbers them
(log 21): the command word is the one and only word, so bit k of `w` is `CW[k]`. -/
def decodeTableWord (nbits w : Nat) : Option Instr :=
  if nbits ≤ 40 then
    match decode (BitVec.ofNat 40 (w % 2 ^ nbits)) with
    | .ok i => some i
    | .error _ => none
  else none

end Sys2Proof
end

