-- ==== Sys2Proof/Machine/HostSequences.lean ====
section
/-! DEFINITION. The caller context's print helpers as the EMIT sequences they expand into
(spec/44_host_sequences.md R175 to R185), with the binary32 arithmetic that PRINT_FLOAT needs (R184; log 14).

A binary32 magnitude is kept exactly, as a natural number of units of 2^-149, the least positive
binary32: every finite binary32 is a whole number of these units. -/

namespace Sys2Proof.Machine

/-! ### binary32 -/

/-- How many units of 2^-149 make 1. -/
def oneInUnits : Nat := 2 ^ 149

/-- Round a magnitude once to binary32, to nearest, ties to even: keep 24 significant bits (R184). -/
def roundUnits (n : Nat) : Nat :=
  let cut := Nat.log2 n + 1 - 24
  let kept := n / 2 ^ cut
  let rest := n % 2 ^ cut
  let up := decide (2 ^ cut < 2 * rest) || (decide (2 ^ cut = 2 * rest) && kept % 2 == 1)
  (if up then kept + 1 else kept) * 2 ^ cut

/-- The sign bit of a binary32 word. -/
def floatSign (v : BitVec 32) : Bool := v.getLsbD 31

/-- The magnitude of a finite binary32 word, in units: a subnormal is its fraction, a normal number
is `2^23 + fraction` shifted by its exponent field less 1. -/
def floatUnits (v : BitVec 32) : Nat :=
  let field := (v.extractLsb' 23 8).toNat
  let fraction := (v.extractLsb' 0 23).toNat
  if field = 0 then fraction else (2 ^ 23 + fraction) * 2 ^ (field - 1)

/-- NaN, an infinity, or a magnitude of 2^31 or more (R184). -/
def floatOutOfRange (v : BitVec 32) : Bool :=
  decide ((v.extractLsb' 23 8).toNat = 255) || decide (2 ^ 31 * oneInUnits ≤ floatUnits v)

/-- `trunc`, toward zero, of a magnitude (R184). -/
def truncUnits (n : Nat) : Nat := n / oneInUnits

/-- `float(·)` of an integer magnitude (R184). -/
def unitsOfNat (k : Nat) : Nat := roundUnits (k * oneInUnits)

/-- The binary32 word of a rounded magnitude; one of 2^128 or more has none and is an infinity (log 14). -/
def floatWord (negative : Bool) (n : Nat) : BitVec 32 :=
  if 2 ^ 128 * oneInUnits ≤ n then BitVec.ofBool negative ++ (0xFF#8 ++ 0#23) else
  let field := if n < 2 ^ 23 then 0 else Nat.log2 n - 22
  let fraction := if n < 2 ^ 23 then n else n / 2 ^ (field - 1) - 2 ^ 23
  BitVec.ofBool negative ++ (BitVec.ofNat 8 field ++ BitVec.ofNat 23 fraction)

/-- The binary32 word nearest the written decimal `±digits / 10^places` (R184), ties to even; a decimal
too large for a finite one is an infinity, which PRINT_FLOAT refuses. -/
def floatOfDecimal (negative : Bool) (digits places : Nat) : BitVec 32 :=
  let unit := 10 ^ places
  let cut := Nat.log2 (digits * oneInUnits / unit) + 1 - 24
  let kept := digits * oneInUnits / (unit * 2 ^ cut)
  let rest := digits * oneInUnits % (unit * 2 ^ cut)
  let up := decide (unit * 2 ^ cut < 2 * rest) ||
    (decide (unit * 2 ^ cut = 2 * rest) && kept % 2 == 1)
  floatWord negative ((if up then kept + 1 else kept) * 2 ^ cut)

/-! ### The bytes each helper emits -/

/-- `'\r'`, `'\n'` (R177). -/
def crlf : List Byte := [0x0D#8, 0x0A#8]

/-- `0x30 + d`, the character of a decimal digit (R178). -/
def digitChar (d : Nat) : Byte := BitVec.ofNat 8 (0x30 + d)

/-- The decimal digits of `m`, least significant first, in a buffer of `room` entries (R178). -/
def digitsLow : Nat → Nat → List Nat
  | 0, _ => []
  | room + 1, m => if m = 0 then [] else m % 10 :: digitsLow room (m / 10)

/-- The decimal characters of a magnitude, most significant first; `'0'` for 0; the buffer has 10 entries (R178). -/
def decimalBytes (m : Nat) : List Byte :=
  if m = 0 then [0x30#8] else (digitsLow 10 m).reverse.map digitChar

/-- PRINT: every byte before the first terminator 0x00 (R176; log 15). -/
def printBytes (text : List Byte) : List Byte := text.takeWhile (· != 0)

/-- PRINT_INT: `'-'` when negative, then the magnitude, which is unsigned (R178, R185).
DESIGN CHOICE (log 28, unsafe): an operand outside the signed 32-bit numbers, to which the spec gives no
meaning, is not refused but prints the low 10 digits of its magnitude. -/
def printIntBytes (n : Int) : List Byte :=
  (if n < 0 then [0x2D#8] else []) ++ decimalBytes n.natAbs

/-- The `dp` fraction digits: `f <- f * 10 ; d = trunc(f) ; f <- f − float(d)`, each step rounded once (R180, R184). -/
def fractionBytes : Nat → Nat → List Byte
  | 0, _ => []
  | dp + 1, f =>
    let f10 := roundUnits (f * 10)
    let d := truncUnits f10
    digitChar d :: fractionBytes dp (roundUnits (f10 - unitsOfNat d))

/-- PRINT_FLOAT of a value in range (R180): `'-'` only when the value is less than 0, so not for `−0.0`. -/
def printFloatBytes (v : BitVec 32) (dp : Nat) : List Byte :=
  let a := floatUnits v
  let ip := truncUnits a
  (if floatSign v && a != 0 then [0x2D#8] else []) ++ printIntBytes (ip : Int) ++
    (if dp = 0 then [] else 0x2E#8 :: fractionBytes dp (roundUnits (a - unitsOfNat ip)))

/-- The bytes a call emits, in order, or the refusal of a float out of range (R176 to R181, R184). -/
def callBytes : Call → Except Refusal (List Byte)
  | .print text => .ok (printBytes text)
  | .println text => .ok (printBytes text ++ crlf)
  | .printInt n => .ok (printIntBytes n)
  | .printIntLn n => .ok (printIntBytes n ++ crlf)
  | .printFloat v dp =>
    if floatOutOfRange v then .error .floatRange else .ok (printFloatBytes v dp.toNat)
  | .printFloatLn v dp =>
    if floatOutOfRange v then .error .floatRange else .ok (printFloatBytes v dp.toNat ++ crlf)

/-- The expansion of a call: one EMIT per byte and nothing else (R175, R83). -/
def emitWords (bytes : List Byte) : List Request := bytes.map (fun b => .word (encode (.emit b)))

end Sys2Proof.Machine
end

