-- ==== Sys2Proof/Machine/Schedule.lean ====
section
/-! DEFINITION. Who steps and what that step is (spec/00_scope.md R13, spec/30_encoding.md R84,
spec/70_reset_and_hazards.md R232): each turn is one atomic transition of one agent (spec/20_memory.md R53). -/

namespace Sys2Proof.Machine

/-- Whose turn it is: the next settled one, else a free value (R13, R14; log 5). -/
def State.turn (s : State) : Turn :=
  match s.sched with
  | t :: _ => t
  | [] => Config.freeTurn s.tick

/-- The state once that turn is taken: the schedule has moved on. -/
def State.advance (s : State) : State :=
  match s.sched with
  | _ :: rest => s.setSched rest s.tick
  | [] => s.setSched [] (s.tick + 1)

/-- Is a command held on a port: a DRAIN on the C port while its condition is false (R90, R116)? -/
def State.holds (s : State) (port : Port) (i : Instr) : Bool :=
  decide (i = .drain) && decide (port = .c) && !s.drainEnabled

/-- A word is issued on a port, `taken` being the state without the word in the port's queue: decoded
(R86), refused if reserved (R79), left in the queue if held (R17; log 7), else performed. -/
def State.issueWord (s : State) (port : Port) (w : CmdWord) (taken : State) : Result :=
  match decode w with
  | .error _ => .refused .reservedEncoding
  | .ok i => if s.holds port i then .next s else exec i (taken.issueOn port)

/-- The producer's turn: nothing if it has nothing to issue (R80), one word on the P port, or the
expansion of a print call into its EMIT words (R83, R175; log 13). -/
def State.producerTurn (s : State) : Result :=
  match s.pq with
  | [] => .next s
  | .word w :: rest => s.issueWord .p w (s.setPq rest)
  | .call c :: rest =>
    match callBytes c with
    | .ok bytes => .next (s.setPq (emitWords bytes ++ rest))
    | .error r => .refused r

/-- The next word of the C port, if there is one (R78). -/
def State.consumerTurn (s : State) : Result :=
  match s.cq with
  | [] => .next s
  | w :: rest => s.issueWord .c w (s.setCq rest)

/-- The drain event: if it is enabled, the handler is entered and DRAIN is performed (R116, R204). -/
def State.drainTurn (s : State) : Result :=
  if s.drainEnabled then exec .drain s.enterHandler else .next s

/-- One agent's turn. -/
def State.runTurn (s : State) (t : Turn) : Result :=
  match t with
  | .producer => s.producerTurn
  | .consumer => s.consumerTurn
  | .drain => s.drainTurn
  | .txDone => txDone s
  | .syncH => syncH s
  | .syncT => syncT s

/-- One step: the instance is checked (R7, R131; log 12), the schedule moves on, the agent takes its turn. -/
def State.takeStep (s : State) : Result :=
  if validInstance s.cfg then s.advance.runTurn s.turn else .refused .badCapacity

/-- The port on which the host's word is placed: the P port if it accepts the command, else the C port. -/
def portFor (w : CmdWord) : Port :=
  match decode w with
  | .ok i => if accepts i .p then .p else .c
  | .error _ => .p

/-- The state with a word as the next to be issued on a port, and the turn to issue it (log 6, log 21). -/
def State.placeWord (s : State) (w : CmdWord) : State :=
  match portFor w with
  | .p => (s.setPq (.word w :: s.pq)).setSched (.producer :: s.sched) s.tick
  | .c => (s.setCq (w :: s.cq)).setSched (.consumer :: s.sched) s.tick

end Sys2Proof.Machine
end

