-- ==== Sys2Proof/Machine/Step.lean ====
section
/-! DEFINITION. The step, and how the host places one command for the next step (log 6, log 21). -/

namespace Sys2Proof.Machine

/-- One step of the machine. -/
def step (s : State) : Host.Outcome State Fault Refusal := s.takeStep

/-- The state with the table's word placed so that the next step issues it (a word wider than `nbits`
has zeros above). -/
def State.withFetchWord (s : State) (nbits w : Nat) : State :=
  s.placeWord (BitVec.ofNat 40 (w % 2 ^ nbits))

end Sys2Proof.Machine
end

