-- ==== Sys2Proof/Machine/Listing.lean ====
section
/-! DEFINITION. The assembler syntax of the spec's listings (spec/30_encoding.md R82, R83): one line is a
command with an optional port, a print call, or a turn that no agent commands. It is notation only; the
machine takes words, calls and turns (log 27). -/

namespace Sys2Proof.Machine

/-- What one line of a listing says. -/
inductive ListingLine where
  | command (port : Option Port) (i : Instr)
  | call (c : Call)
  | turn (t : Turn)
  deriving DecidableEq, Repr

/-- The value of a hexadecimal digit. -/
def hexValue (ch : Char) : Option Nat :=
  if '0' ≤ ch ∧ ch ≤ '9' then some (ch.toNat - 48)
  else if 'A' ≤ ch ∧ ch ≤ 'F' then some (ch.toNat - 55)
  else if 'a' ≤ ch ∧ ch ≤ 'f' then some (ch.toNat - 87)
  else none

/-- Digits in a base, most significant first, added on to `acc`. -/
def readDigits (base : Nat) : List Char → Nat → Option Nat
  | [], acc => some acc
  | ch :: rest, acc =>
    match hexValue ch with
    | some d => if d < base then readDigits base rest (acc * base + d) else none
    | none => none

/-- A number in a base with at least one digit. -/
def readNumber (base : Nat) (l : List Char) : Option Nat :=
  if l.isEmpty then none else readDigits base l 0

/-- A signed decimal number. -/
def readSigned : List Char → Option Int
  | '-' :: l => (readNumber 10 l).map fun n => -(n : Int)
  | l => (readNumber 10 l).map fun n => (n : Int)

/-- A byte: decimal, hexadecimal, or a character in single quotes (R82), which stands for the byte of its
own code and is not read above U+00FF (DESIGN CHOICE, log 27, safe). -/
def readByte : List Char → Option Byte
  | '0' :: 'x' :: l => (readNumber 16 l).bind fun n => if n < 256 then some (BitVec.ofNat 8 n) else none
  | ['\'', '\\', ch, '\''] =>
    if ch = 'r' then some 0x0D#8 else if ch = 'n' then some 0x0A#8
    else if ch = '0' then some 0x00#8 else none
  | ['\'', ch, '\''] => if ch.toNat < 256 then some (BitVec.ofNat 8 ch.toNat) else none
  | l => (readNumber 10 l).bind fun n => if n < 256 then some (BitVec.ofNat 8 n) else none

/-- A text in double quotes (R83). DESIGN CHOICE (log 27, safe): a character stands for the byte of its own
code, and a text with one above U+00FF is not read. -/
def readText (l : List Char) : Option (List Byte) :=
  match l with
  | [] => none
  | ch :: rest =>
    if ch.toNat = 34 ∧ rest.getLast? = some (Char.ofNat 34) ∧
        rest.dropLast.all (fun b => decide (b.toNat < 256)) = true then
      some (rest.dropLast.map fun b => BitVec.ofNat 8 b.toNat)
    else none

/-- A decimal with an optional fraction, as the nearest binary32 (R184). -/
def readFloat (l : List Char) : Option (BitVec 32) :=
  let negative := l.head? == some '-'
  let digits := if negative then l.tail else l
  let whole := digits.takeWhile (· != '.')
  let fraction := (digits.dropWhile (· != '.')).tail
  (readNumber 10 (whole ++ fraction)).map fun n => floatOfDecimal negative n fraction.length

/-- The operands of PRINT_FLOAT: a value, a comma, the number of places (R83). -/
def readFloatPlaces (l : List Char) : Option (BitVec 32 × Byte) :=
  let places := ((l.dropWhile (· != ',')).tail).dropWhile (· == ' ')
  match readFloat (l.takeWhile (· != ',')), readNumber 10 places with
  | some v, some n => if n < 256 then some (v, BitVec.ofNat 8 n) else none
  | _, _ => none

/-- A command without operand. -/
def readPlain (port : Option Port) (i : Instr) (operand : List Char) : Option ListingLine :=
  if operand.isEmpty then some (.command port i) else none

/-- The mnemonic and the operand of a line, after its port (R82, R83). -/
def readBody (port : Option Port) (mnemonic operand : List Char) : Option ListingLine :=
  if mnemonic = "INIT".toList then readPlain port .init operand
  else if mnemonic = "IS_EMPTY".toList then readPlain port .isEmpty operand
  else if mnemonic = "IS_FULL".toList then readPlain port .isFull operand
  else if mnemonic = "PUT".toList then (readByte operand).map fun b => .command port (.put b)
  else if mnemonic = "GET".toList then readPlain port .get operand
  else if mnemonic = "BEGIN".toList then
    (readSigned operand).bind fun n => if isInt32 n then some (.command port (.begin n)) else none
  else if mnemonic = "EMIT".toList then (readByte operand).map fun b => .command port (.emit b)
  else if mnemonic = "DRAIN".toList then readPlain port .drain operand
  else if mnemonic = "PRINT".toList then (readText operand).map fun l => .call (.print l)
  else if mnemonic = "PRINTLN".toList then (readText operand).map fun l => .call (.println l)
  else if mnemonic = "PRINT_INT".toList then
    (readSigned operand).bind fun n => if isInt32 n then some (.call (.printInt n)) else none
  else if mnemonic = "PRINT_INT_LN".toList then
    (readSigned operand).bind fun n => if isInt32 n then some (.call (.printIntLn n)) else none
  else if mnemonic = "PRINT_FLOAT".toList then
    (readFloatPlaces operand).map fun v => .call (.printFloat v.1 v.2)
  else if mnemonic = "PRINT_FLOAT_LN".toList then
    (readFloatPlaces operand).map fun v => .call (.printFloatLn v.1 v.2)
  else none

/-- The mnemonic is what stands before the first space, the operand what stands after it. -/
def readLine (port : Option Port) (l : List Char) : Option ListingLine :=
  readBody port (l.takeWhile (· != ' ')) ((l.dropWhile (· != ' ')).dropWhile (· == ' '))

/-- One line of a listing (R82). -/
def readListing : List Char → Option ListingLine
  | 'P' :: ':' :: ' ' :: l => readLine (some .p) l
  | 'C' :: ':' :: ' ' :: l => readLine (some .c) l
  | 'D' :: ':' :: ' ' :: l => if l = "TX_DONE".toList then some (.turn .txDone) else none
  | 'S' :: ':' :: ' ' :: l =>
    if l = "SYNC_H".toList then some (.turn .syncH)
    else if l = "SYNC_T".toList then some (.turn .syncT)
    else none
  | l => readLine none l

end Sys2Proof.Machine
end

