-- ==== Sys2Proof/Safety.lean ====
section
/-! DEFINITION. What counts as a sound state and a fair run, in the terms the statements use: the
invariants of spec/10_state.md R24, R27, R40, spec/42_cdc_sync.md R142 and spec/20_memory.md R58; the final states of
spec/70_reset_and_hazards.md R234; runs, and the fairness of R144 and R233. -/

namespace Sys2Proof.Machine

/-! ### Well-formed states -/

/-- The cursors' part: both in range (R24), or neither has a value and nothing was armed (R38, R90). -/
def State.cursorsOk (s : State) : Bool :=
  match s.head, s.tail with
  | some h, some t => decide (h < s.cfg.C) && decide (t < s.cfg.C)
  | none, none => !s.armed
  | some _, none => false
  | none, some _ => false

/-- A synchroniser's part: S stages (R135), with a code word in each once the cursors have values, and
no value in any before (R38, R142). -/
def State.chainOk (s : State) (chain : List (Option Nat)) : Bool :=
  (chain.length == s.cfg.S) && chain.all fun stage =>
    match stage with
    | some g => s.head.isSome && (dec s.cfg.C g).isSome
    | none => s.head.isNone

/-- The state invariant: an admitted instance, storage in canonical form inside its slots, cursors and
synchronisers as above, and a byte in the output register while it is being sent (R33). -/
def State.wf (s : State) : Bool :=
  validInstance s.cfg && Memory.wf s.storage && Memory.within s.cfg.C s.storage && s.cursorsOk &&
    s.chainOk s.hs && s.chainOk s.ts && (s.txfree || s.txreg.isSome)

/-! ### The queue -/

/-- `storage[tail], storage[inc(tail)], …`, `n` slots (R27). -/
def slotsFrom (C : Nat) (m : Memory) (t n : Nat) : List (Option Byte) :=
  (List.range n).map fun k => Memory.read m ((t + k) % C)

/-- The queue's content, oldest first: the `occ` slots from `tail` (R27); empty before the cursors have values. -/
def State.queue (s : State) : List (Option Byte) :=
  match s.head, s.tail with
  | some h, some t => slotsFrom s.cfg.C s.storage t (dist s.cfg.C t h)
  | _, _ => []

/-- The events since the last `Init`. -/
def sinceInit (trace : List Event) : List Event :=
  (trace.reverse.takeWhile (fun e => e != Event.init)).reverse

/-- The bytes of the `Put` events: what PUT and EMIT accepted (R58). -/
def acceptedBytes (l : List Event) : List Byte :=
  l.filterMap fun e => match e with
    | .put b => some b
    | _ => none

/-- The bytes of the `Get` events: what GET and DRAIN took (R58). -/
def takenBytes (l : List Event) : List Byte :=
  l.filterMap fun e => match e with
    | .get b => some b
    | _ => none

/-- The bytes of the `TxWrite` events: what DRAIN handed to the device (R115). -/
def handedBytes (l : List Event) : List Byte :=
  l.filterMap fun e => match e with
    | .txWrite b => some b
    | _ => none

/-- First in, first out: since the last INIT, what was accepted is what was taken followed by what is
queued (R58); in particular every queued slot holds a value (R40 c). -/
def State.fifo (s : State) : Prop :=
  s.head.isSome = true →
    (acceptedBytes (sinceInit s.trace)).map some =
      (takenBytes (sinceInit s.trace)).map some ++ s.queue

/-- The cursors count the accepted and the taken bytes since the last INIT, modulo `C` (R98). -/
def State.cursorsCount (s : State) : Prop :=
  ∀ h t, s.head = some h → s.tail = some t →
    h = (acceptedBytes (sinceInit s.trace)).length % s.cfg.C ∧
      t = (takenBytes (sinceInit s.trace)).length % s.cfg.C

/-- What was handed to the device is the wire followed by the byte in flight, if any (R40 d, R37 b). -/
def State.deviceAccount (s : State) : Prop :=
  (handedBytes s.trace).map some = s.line.map some ++ (if s.txfree then [] else [s.txreg])

/-! ### The order around the ring -/

/-- The values in a synchroniser's stages, output stage first. -/
def stageValues (C : Nat) (chain : List (Option Nat)) : List Nat :=
  chain.reverse.filterMap fun stage => stage.bind (dec C)

/-- The way from each position to the next, added up. -/
def travel (C : Nat) : List Nat → Nat
  | a :: b :: l => dist C a b + travel C (b :: l)
  | _ => 0

/-- `tail_seen`, the younger tail samples, `tail`, `head_seen`, the younger head samples, `head` follow one
another within one lap (R142 a, b). -/
def State.ringOrdered (s : State) : Bool :=
  match s.head, s.tail with
  | some h, some t =>
    decide (travel s.cfg.C (stageValues s.cfg.C s.ts ++ t :: stageValues s.cfg.C s.hs ++ [h]) < s.cfg.C)
  | _, _ => true

/-! ### Ends of runs, and fairness -/

/-- Both views have caught up: `head_seen = head` and `tail_seen = tail` (R234). -/
def State.viewsExact (s : State) (h t : Nat) : Bool :=
  s.cfg.S == 0 ||
    match seenThrough s.cfg.C s.hs, seenThrough s.cfg.C s.ts with
    | .ok h', .ok t' => h' == h && t' == t
    | _, _ => false

/-- A final state (R234): the producer has nothing to issue, the queue is empty and the device idle.
DESIGN CHOICE (log 29, safe): a state in which a cursor has no value is not final, power-on among them. -/
def State.final (s : State) : Bool :=
  s.pq.isEmpty && s.txfree && !s.armed &&
    match s.head, s.tail with
    | some h, some t => h == t && s.viewsExact h t
    | _, _ => false

/-- The next turn is to issue the word `w` on a port, where `w` is the next one. -/
def State.aboutToIssue (s : State) (port : Port) (w : CmdWord) : Prop :=
  match port with
  | .p => (∃ turns, s.sched = .producer :: turns) ∧ ∃ rest, s.pq = .word w :: rest
  | .c => (∃ turns, s.sched = .consumer :: turns) ∧ ∃ rest, s.cq = w :: rest

/-- Two states that differ at most in the inputs: what the agents have still to issue, and the settled turns. -/
def State.sameButInputs (s s' : State) : Prop :=
  s' = { s with pq := s'.pq, cq := s'.cq, sched := s'.sched }

/-- An endless run: each state is the step of the one before, and between two steps the outside world may
set the inputs (log 5, log 6). -/
def IsRun (r : Nat → State) : Prop :=
  ∀ n, ∃ s', step (r n) = .next s' ∧ s'.sameButInputs (r (n + 1))

/-- The command that the step of this state attempts, if it attempts one. -/
def State.attempted (s : State) : Option Instr :=
  match s.turn with
  | .producer =>
    match s.pq with
    | .word w :: _ => (decode w).toOption
    | .call _ :: _ => none
    | [] => none
  | .consumer =>
    match s.cq with
    | w :: _ => (decode w).toOption
    | [] => none
  | .drain => some .drain
  | .txDone => none
  | .syncH => none
  | .syncT => none

/-- The step of this state attempts a DRAIN: the drain event's turn, or a DRAIN word at the C port. -/
def State.attemptsDrain (s : State) : Prop :=
  s.turn = .drain ∨
    (s.turn = .consumer ∧ ∃ w rest, s.cq = w :: rest ∧ decode w = .ok .drain)

/-- Weak fairness of DRAIN (R233): enabled for ever from some point on, it is attempted after that point. -/
def FairDrain (r : Nat → State) : Prop :=
  ∀ n, (∀ m, n ≤ m → (r m).drainEnabled = true) → ∃ m, n ≤ m ∧ (r m).attemptsDrain

/-- Weak fairness of TX_DONE (R233). -/
def FairTxDone (r : Nat → State) : Prop :=
  ∀ n, (∀ m, n ≤ m → (r m).txfree = false) → ∃ m, n ≤ m ∧ (r m).turn = .txDone

/-- The synchroniser edges are enabled: there are stages, and the cursors have values (R136, R137). -/
def State.syncEnabled (s : State) : Bool :=
  decide (1 ≤ s.cfg.S) && s.head.isSome && s.tail.isSome

/-- Weak fairness of SYNC_H (R144, R233). -/
def FairSyncH (r : Nat → State) : Prop :=
  ∀ n, (∀ m, n ≤ m → (r m).syncEnabled = true) → ∃ m, n ≤ m ∧ (r m).turn = .syncH

/-- Weak fairness of SYNC_T (R144, R233). -/
def FairSyncT (r : Nat → State) : Prop :=
  ∀ n, (∀ m, n ≤ m → (r m).syncEnabled = true) → ∃ m, n ≤ m ∧ (r m).turn = .syncT

/-- What the state owes the wire: the byte being sent, if any, and then the queue. -/
def State.owed (s : State) : List (Option Byte) := (if s.txfree then [] else [s.txreg]) ++ s.queue

/-- A byte that a drain event may find is armed: for `S = 0` one in the queue (R40 e), for `S ≥ 1` one that
the consumer sees (R142 c). -/
def State.armedForBytes (s : State) : Prop :=
  ∀ h t, s.view .c = .ok (h, t) → h ≠ t → s.armed = true

/-- The commands that a driver issues once it has begun, by the interface the spec names for it: no INIT, BEGIN or
GET, and no bare PUT where only EMIT arms (R223, R224, R226). -/
def State.keepsToDriver (s : State) : Prop :=
  ∀ i, s.attempted = some i →
    i ≠ .init ∧ i ≠ .get ∧ (∀ n, i ≠ .begin n) ∧ (s.cfg.S = 0 → ∀ b, i ≠ .put b)

/-- Run a command once for each byte of a list, in order, stopping where the machine stops. -/
def execEach (f : Byte → Instr) : List Byte → State → Result
  | [], s => .next s
  | b :: l, s =>
    match exec (f b) s with
    | .next s' => execEach f l s'
    | .fault r => .fault r
    | .refused r => .refused r

/-- `n` rounds of the restart loop of R117: DRAIN on the C port, then TX_DONE. -/
def drainRounds : Nat → State → Result
  | 0, s => .next s
  | n + 1, s =>
    match exec .drain s with
    | .next s' =>
      match txDone s' with
      | .next s'' => drainRounds n s''
      | .fault r => .fault r
      | .refused r => .refused r
    | .fault r => .fault r
    | .refused r => .refused r

/-- `n` edges of the head synchroniser. -/
def syncHTimes : Nat → State → Result
  | 0, s => .next s
  | n + 1, s =>
    match syncH s with
    | .next s' => syncHTimes n s'
    | .fault r => .fault r
    | .refused r => .refused r

/-- `n` edges of the tail synchroniser. -/
def syncTTimes : Nat → State → Result
  | 0, s => .next s
  | n + 1, s =>
    match syncT s with
    | .next s' => syncTTimes n s'
    | .fault r => .fault r
    | .refused r => .refused r

end Sys2Proof.Machine
end

