-- ==== Sys2Proof/Certificates/Slice0/Obligations.lean ====
section
/-! DEFINITION. The statements about the model, from the numbered rules of the spec. Each docstring
names the rule; the log entries named are the model's own choices that a clause rests on. -/

open Sys2Proof Sys2Proof.Machine

/-! ### Words and decoding -/

/-- Words of the spec's own vectors T1 to T19a decode to the commands they stand for (R72 to R76). -/
def Obligations.SpecWordsDecode : Prop :=
  decode 0x0100000000#40 = .ok .init ∧
  decode 0x0200000000#40 = .ok .isEmpty ∧
  decode 0x0300000000#40 = .ok .isFull ∧
  decode 0x0400000041#40 = .ok (.put 0x41#8) ∧
  decode 0x0500000000#40 = .ok .get ∧
  decode 0x0600002580#40 = .ok (.begin 9600) ∧
  decode 0x06FFFFFFFF#40 = .ok (.begin (-1)) ∧
  decode 0x0680000000#40 = .ok (.begin (-2147483648)) ∧
  decode 0x0700000068#40 = .ok (.emit 0x68#8) ∧
  decode 0x0800000000#40 = .ok .drain ∧
  decode 0x0000000000#40 = .error .opcode ∧
  decode 0x0900000000#40 = .error .opcode ∧
  decode 0x0100000001#40 = .error .argZ ∧
  decode 0x07FFFFFF41#40 = .error .argB

/-- Every well-formed command is read back from its word, with every operand (R72 to R76, R86). -/
def Obligations.DecodeOfEncodeIsTheCommand : Prop :=
  ∀ i : Instr, i.wf = true → decode (encode i) = .ok i

/-- A word that decodes is the one word of the command it decodes to, which is well formed (R71 to R76, R86). -/
def Obligations.EncodeOfDecodeIsTheWord : Prop :=
  ∀ (w : CmdWord) (i : Instr), decode w = .ok i → i.wf = true ∧ encode i = w

/-- R79: a word is reserved exactly if it matches no row, that is for the opcodes 0x00 and 0x09 to 0xFF
and for non-zero bits that must be zero; a word that is not reserved matches one row, its own; a reserved
word issued on either port is refused, so no state changes. -/
def Obligations.ReservedWordsAreRefused : Prop :=
  (∀ w : CmdWord,
    (opcodeTable.filter (fun r => r.selects w)).map (fun r => r.mnemonic) =
      (match decode w with
       | .ok i => [i.mnemonic]
       | .error _ => [])) ∧
  (∀ w : CmdWord,
    (∃ e, decode w = .error e) ↔
      opField w = 0 ∨ 9 ≤ (opField w).toNat ∨
      (opField w ∈ [1#8, 2#8, 3#8, 5#8, 8#8] ∧ argField w ≠ 0) ∨
      (opField w ∈ [4#8, 7#8] ∧ (argField w).extractLsb' 8 24 ≠ 0)) ∧
  (∀ (s : State) (port : Port) (w : CmdWord) (e : Reserved),
    validInstance s.cfg = true → s.aboutToIssue port w → decode w = .error e →
      step s = .refused .reservedEncoding)

/-! ### The step -/

/-- A producer's turn runs the command its next word decodes to, on the P port; around it the step only
moves the schedule and the queue on (R13, R86; log 5, log 6). -/
def Obligations.StepRunsTheProducersWord : Prop :=
  ∀ (s : State) (w : CmdWord) (i : Instr) (rest : List Request) (turns : List Turn),
    validInstance s.cfg = true → s.sched = .producer :: turns → s.pq = .word w :: rest →
    decode w = .ok i →
      step s = exec i { s with sched := turns, pq := rest, issuer := .p }

/-- The C port's turn runs the command its next word decodes to, but a DRAIN that is not enabled is held:
it stays where it is and only the schedule moves on (R90, R116; log 5, log 6, log 7). -/
def Obligations.StepRunsTheConsumersWord : Prop :=
  ∀ (s : State) (w : CmdWord) (i : Instr) (rest : List CmdWord) (turns : List Turn),
    validInstance s.cfg = true → s.sched = .consumer :: turns → s.cq = w :: rest →
    decode w = .ok i →
      step s = if i = .drain ∧ s.drainEnabled = false then .next { s with sched := turns }
        else exec i { s with sched := turns, cq := rest, issuer := .c }

/-- The turns that no word commands: the drain event, TX_DONE and the synchroniser edges; past the
settled schedule any turn at all, a free value; and the turns that do nothing but move the schedule on: of
a port with nothing to issue (R80), of a synchroniser that is not enabled (R13, R84, R116, R232; log 5, log 7). -/
def Obligations.StepTakesTheUnencodedTurns : Prop :=
  ∀ (s : State) (turns : List Turn), validInstance s.cfg = true →
    (s.sched = .drain :: turns →
      step s = if s.armed = true ∧ s.txfree = true ∧ s.gie = true
        then exec .drain { s with sched := turns, issuer := .c } else .next { s with sched := turns }) ∧
    (s.sched = .txDone :: turns → step s = txDone { s with sched := turns }) ∧
    (s.sched = .syncH :: turns → step s = syncH { s with sched := turns }) ∧
    (s.sched = .syncT :: turns → step s = syncT { s with sched := turns }) ∧
    (s.sched = [] →
      step s = State.runTurn { s with tick := s.tick + 1 } (Config.freeTurn s.tick)) ∧
    ((s.sched = .producer :: turns ∧ s.pq = []) ∨ (s.sched = .consumer :: turns ∧ s.cq = []) ∨
      ((s.sched = .syncH :: turns ∨ s.sched = .syncT :: turns) ∧
        (s.cfg.S = 0 ∨ s.head = none ∨ s.tail = none)) →
      step s = .next { s with sched := turns })

/-- A print call is replaced, in the caller's queue, by one EMIT word for each of its bytes, and touches
nothing else; a float out of range is refused (R83, R175, R184; log 13; log 28 for integers outside int32). -/
def Obligations.StepExpandsAPrintCall : Prop :=
  ∀ (s : State) (c : Call) (rest : List Request) (turns : List Turn),
    validInstance s.cfg = true → s.sched = .producer :: turns → s.pq = .call c :: rest →
      (∀ bytes, callBytes c = .ok bytes →
        step s = .next { s with
          sched := turns
          pq := bytes.map (fun b => .word (0x07000000#32 ++ b)) ++ rest }) ∧
      (∀ r, callBytes c = .error r → r = .floatRange ∧ step s = .refused .floatRange)

/-- R90: the checks before a command's rule, in order: a reserved word is refused; then the wrong port is
refused; then a DRAIN that is not enabled is held; then every command but INIT and BEGIN faults while a
cursor has no value. So a DRAIN before initialisation is held, never faulted. That a held DRAIN is a step which
moves the schedule on and leaves the word in its queue is the model's choice (log 7): R90 says that it is not
a step at all. -/
def Obligations.CommandChecksComeInOrder : Prop :=
  ∀ (s : State) (port : Port) (w : CmdWord), validInstance s.cfg = true → s.aboutToIssue port w →
    (∀ e, decode w = .error e → step s = .refused .reservedEncoding) ∧
    (∀ i, decode w = .ok i →
      (accepts i port = false → step s = .refused .wrongPort) ∧
      (accepts i port = true → i = .drain → s.drainEnabled = false →
        step s = .next { s with sched := s.sched.tail }) ∧
      (accepts i port = true → i ≠ .init → (∀ n, i ≠ .begin n) →
        (i = .drain → s.drainEnabled = true) → (s.head = none ∨ s.tail = none) →
          step s = .fault .uninitUse) ∧
      (s.wf = true → s.head = none → port = .c → i = .drain →
        step s = .next { s with sched := s.sched.tail }))

/-- The commands each port accepts; any other is refused there, and only that is (R78). -/
def Obligations.PortsAcceptTheirOwnCommands : Prop :=
  ∀ (s : State) (i : Instr), validInstance s.cfg = true →
    (s.issuer = .p →
      (exec i s = .refused .wrongPort ↔ i = .get ∨ i = .drain)) ∧
    (s.issuer = .c →
      (exec i s = .refused .wrongPort ↔
        i = .init ∨ (∃ n, i = .begin n) ∨ (∃ b, i = .put b) ∨ ∃ b, i = .emit b))

/-- A capacity of 0, and with synchronisers an odd one, is refused by every command and every step
(R7, R131; at every step, not once: log 12). -/
def Obligations.BadCapacityIsRefused : Prop :=
  ∀ (s : State) (i : Instr), (s.cfg.C = 0 ∨ (1 ≤ s.cfg.S ∧ s.cfg.C % 2 = 1)) →
    exec i s = .refused .badCapacity ∧ step s = .refused .badCapacity

/-! ### Power-on and invariants there -/

/-- R220: the power-on state of every instance. -/
def Obligations.PowerOnState : Prop :=
  (∀ c : Config,
    (∀ a, Memory.read (State.powerOn c).storage a = none) ∧
    (State.powerOn c).head = none ∧ (State.powerOn c).tail = none ∧
    (State.powerOn c).txreg = none ∧ (State.powerOn c).divisor = none ∧
    (State.powerOn c).hs = List.replicate c.S none ∧ (State.powerOn c).ts = List.replicate c.S none ∧
    (State.powerOn c).armed = false ∧ (State.powerOn c).txfree = true ∧
    (State.powerOn c).txen = false ∧ (State.powerOn c).gie = c.gieInit ∧
    (State.powerOn c).line = [] ∧ (State.powerOn c).trace = [] ∧ (State.powerOn c).cfg = c) ∧
  State.reset = State.powerOn State.reset.cfg

/-- Every admitted instance powers on in a state that meets the invariants, `State.reset` among them
(R38, R40, R142). -/
def Obligations.PowerOnMeetsTheInvariants : Prop :=
  (∀ c : Config, validInstance c = true →
    (State.powerOn c).wf = true ∧ (State.powerOn c).ringOrdered = true ∧ (State.powerOn c).fifo ∧
      (State.powerOn c).deviceAccount) ∧
  State.reset.wf = true

/-! ### Views, flags, codes -/

/-- The two views: exact without synchronisers; with them, each side reads its own cursor exactly and the
other's through the output stage; in a well-formed state both views exist and are in range (R30, R138). -/
def Obligations.ViewsOfTheTwoSides : Prop :=
  ∀ (s : State) (h t : Nat), s.head = some h → s.tail = some t →
    (s.cfg.S = 0 → ∀ port, s.view port = .ok (h, t)) ∧
    (1 ≤ s.cfg.S → ∀ l g v, s.ts = l ++ [some g] → dec s.cfg.C g = some v →
      s.view .p = .ok (h, v)) ∧
    (1 ≤ s.cfg.S → ∀ l g v, s.hs = l ++ [some g] → dec s.cfg.C g = some v →
      s.view .c = .ok (v, t)) ∧
    (s.wf = true → ∃ h' t', s.view .p = .ok (h, t') ∧ s.view .c = .ok (h', t) ∧
      h < s.cfg.C ∧ t < s.cfg.C ∧ h' < s.cfg.C ∧ t' < s.cfg.C)

/-- R27: occupancy and the two flags, and what the queue's content is. -/
def Obligations.FlagsFollowOccupancy : Prop :=
  (∀ C h t : Nat, h < C → t < C →
    dist C t h ≤ C - 1 ∧
    (emptyFlag h t = true ↔ dist C t h = 0) ∧
    (fullFlag C h t = true ↔ dist C t h = C - 1) ∧
    (2 ≤ C → ¬ (emptyFlag h t = true ∧ fullFlag C h t = true)) ∧
    ((t + dist C t h) % C = h)) ∧
  (∀ (s : State) (h t : Nat), s.head = some h → s.tail = some t →
    s.queue.length = dist s.cfg.C t h ∧
    ∀ k, k < dist s.cfg.C t h →
      s.queue[k]? = some (Memory.read s.storage ((t + k) % s.cfg.C)))

/-- R132: the binary-reflected gray code and its inverse, bit by bit; neighbours differ in one bit; the
code is a mirror image about its middle but for the top bit. -/
def Obligations.GrayCodeAndItsInverse : Prop :=
  (∀ x : Nat, b2g x = x ^^^ (x >>> 1)) ∧
  (∀ w g j : Nat, g < 2 ^ w → j < w →
    (g2b w g).testBit j =
      if j + 1 = w then g.testBit j else Bool.xor ((g2b w g).testBit (j + 1)) (g.testBit j)) ∧
  (∀ w x : Nat, x < 2 ^ w → b2g x < 2 ^ w ∧ g2b w (b2g x) = x) ∧
  (∀ w g : Nat, g < 2 ^ w → g2b w g < 2 ^ w ∧ b2g (g2b w g) = g) ∧
  (∀ w x : Nat, x + 1 < 2 ^ w → ∃ k, k < w ∧ b2g x ^^^ b2g (x + 1) = 2 ^ k) ∧
  (∀ w x : Nat, 1 ≤ w → x < 2 ^ w → b2g (2 ^ w - 1 - x) = b2g x ^^^ 2 ^ (w - 1))

/-- The pointer code: its offset, `dec` inverts `enc`, the last word differs from the first in the top bit
only, and `dec` is defined on the code words only (R133; log 10). -/
def Obligations.PointerCodeRoundTrip : Prop :=
  ∀ C : Nat, 2 ≤ C → C % 2 = 0 →
    2 * codeOffset C + C = 2 ^ cursorBits C ∧
    (∀ i, i < C → enc C i < 2 ^ cursorBits C ∧ dec C (enc C i) = some i) ∧
    (∀ g v, dec C g = some v → v < C ∧ enc C v = g) ∧
    enc C (C - 1) ^^^ enc C 0 = 2 ^ (cursorBits C - 1)

/-- R134: unit distance, the wrap from `C-1` to 0 included. -/
def Obligations.PointerCodeUnitDistance : Prop :=
  ∀ C i : Nat, 2 ≤ C → C % 2 = 0 → i < C →
    ∃ k, k < cursorBits C ∧ enc C i ^^^ enc C (inc C i) = 2 ^ k

/-! ### The commands -/

/-- INIT runs in every state of an admitted instance, on the P port: both cursors 0, every stage `enc(0)`,
event `Init`, response 0, nothing else; both views are then empty (R91, R140). -/
def Obligations.InitResetsTheBuffer : Prop :=
  ∀ s : State, validInstance s.cfg = true → s.issuer = .p →
    ∃ t, exec .init s = .next t ∧
      t = { s with
        head := some 0, tail := some 0
        hs := List.replicate s.cfg.S (some (enc s.cfg.C 0))
        ts := List.replicate s.cfg.S (some (enc s.cfg.C 0))
        trace := s.trace ++ [.init]
        resp := some 0x000#9 } ∧
      t.view .p = .ok (0, 0) ∧ t.view .c = .ok (0, 0)

/-- IS_EMPTY answers from the view of the port it is issued on and changes nothing else (R92). -/
def Obligations.IsEmptyAnswersFromTheView : Prop :=
  ∀ (s : State) (h t : Nat), validInstance s.cfg = true → s.view s.issuer = .ok (h, t) →
    exec .isEmpty s = .next { s with resp := some (if h = t then 0x100#9 else 0x000#9) }

/-- IS_FULL answers from the view of the port it is issued on and changes nothing else (R93). -/
def Obligations.IsFullAnswersFromTheView : Prop :=
  ∀ (s : State) (h t : Nat), validInstance s.cfg = true → s.view s.issuer = .ok (h, t) →
    exec .isFull s =
      .next { s with resp := some (if (h + 1) % s.cfg.C = t then 0x100#9 else 0x000#9) }

/-- PUT: dropped when the producer view is full, only the ghost trace and the response then change;
else the byte is stored at `head`, every other slot keeps its byte, and `head` advances (R94). -/
def Obligations.PutStoresOrDrops : Prop :=
  ∀ (s : State) (h t : Nat) (b : Byte), validInstance s.cfg = true → s.issuer = .p →
    s.view .p = .ok (h, t) →
    ((h + 1) % s.cfg.C = t →
      exec (.put b) s = .next { s with trace := s.trace ++ [.drop b], resp := some 0x000#9 }) ∧
    ((h + 1) % s.cfg.C ≠ t → h < s.cfg.C →
      ∃ m, exec (.put b) s = .next { s with
          storage := m
          head := some ((h + 1) % s.cfg.C)
          trace := s.trace ++ [.put b]
          resp := some 0x100#9 } ∧
        Memory.read m h = some b ∧ ∀ a, a ≠ h → Memory.read m a = Memory.read s.storage a)

/-- GET: none when the consumer view is empty, and nothing but the response changes; else the byte at
`tail`, and `tail` advances (R95). -/
def Obligations.GetTakesTheOldestOrNone : Prop :=
  ∀ (s : State) (h t : Nat), validInstance s.cfg = true → s.issuer = .c →
    s.view .c = .ok (h, t) →
    (h = t → exec .get s = .next { s with resp := some 0x000#9 }) ∧
    (∀ b, h ≠ t → t < s.cfg.C → Memory.read s.storage t = some b →
      exec .get s = .next { s with
        tail := some ((t + 1) % s.cfg.C)
        trace := s.trace ++ [.get b]
        resp := some (0x100#9 + b.setWidth 9) })

/-- BEGIN: refused for a rate of zero or less; else the device is configured with the divisor of R166 and
enabled and the buffer initialised as by INIT, and `armed`, `gie` and the byte in flight stay (R111, R166).
That it runs with a rate above 2147483647 too, which no word can give it, is the model's choice (log 28). -/
def Obligations.BeginConfiguresAndResets : Prop :=
  ∀ (s : State) (baud : Int), validInstance s.cfg = true → s.issuer = .p →
    (baud ≤ 0 → exec (.begin baud) s = .refused .badBaud) ∧
    (0 < baud →
      exec (.begin baud) s = .next { s with
        divisor := some ((s.cfg.fClk : Int) / (8 * baud) - 1)
        frame := { dataBits := 8, parity := false, stopBits := 1, doubleRate := true }
        txen := true
        head := some 0, tail := some 0
        hs := List.replicate s.cfg.S (some (enc s.cfg.C 0))
        ts := List.replicate s.cfg.S (some (enc s.cfg.C 0))
        trace := s.trace ++ [.init]
        resp := some 0x000#9 })

/-- EMIT: as PUT, and with `S = 0` it arms, also redundantly, exactly when the view was empty before;
`gie` is what it was, after a drop too (R112, R113, R139). -/
def Obligations.EmitStoresAndArms : Prop :=
  ∀ (s : State) (h t : Nat) (b : Byte), validInstance s.cfg = true → s.issuer = .p →
    s.view .p = .ok (h, t) →
    ((h + 1) % s.cfg.C = t →
      exec (.emit b) s = .next { s with
        armed := if s.cfg.S = 0 ∧ h = t then true else s.armed
        trace := s.trace ++ [.drop b] ++ (if s.cfg.S = 0 ∧ h = t then [.arm] else [])
        resp := some 0x000#9 }) ∧
    ((h + 1) % s.cfg.C ≠ t → h < s.cfg.C →
      ∃ m, exec (.emit b) s = .next { s with
          storage := m
          head := some ((h + 1) % s.cfg.C)
          armed := if s.cfg.S = 0 ∧ h = t then true else s.armed
          trace := s.trace ++ [.put b] ++ (if s.cfg.S = 0 ∧ h = t then [.arm] else [])
          resp := some 0x100#9 } ∧
        Memory.read m h = some b ∧ ∀ a, a ≠ h → Memory.read m a = Memory.read s.storage a)

/-- DRAIN: held, with nothing changed, while it is not enabled (log 7); enabled, it disarms when the
consumer view is empty, and else hands the byte at `tail` to the output register (R115, R116). -/
def Obligations.DrainSendsOrDisarms : Prop :=
  ∀ s : State, validInstance s.cfg = true → s.issuer = .c →
    (¬ (s.armed = true ∧ s.txfree = true ∧ s.gie = true) → exec .drain s = .next s) ∧
    (∀ h t, s.armed = true → s.txfree = true → s.gie = true → s.view .c = .ok (h, t) →
      (h = t → exec .drain s = .next { s with
        armed := false, trace := s.trace ++ [.disarm], resp := some 0x000#9 }) ∧
      (∀ b, h ≠ t → t < s.cfg.C → Memory.read s.storage t = some b →
        exec .drain s = .next { s with
          tail := some ((t + 1) % s.cfg.C)
          txreg := some b, txfree := false
          trace := s.trace ++ [.get b, .txWrite b]
          resp := some (0x100#9 + b.setWidth 9) }))

/-- The outcome codes carried by the responses, from what the view was before (R198, R77). -/
def Obligations.ResponsesCarryTheOutcome : Prop :=
  ∀ (s s' : State) (h t : Nat), s.view s.issuer = .ok (h, t) →
    (∀ i b, i = .put b ∨ i = .emit b → exec i s = .next s' →
      s'.resp.bind (outcomeCode i) = some (if fullFlag s.cfg.C h t then .dropped else .accepted)) ∧
    (exec .get s = .next s' →
      s'.resp.bind (outcomeCode .get) =
        if h = t then some .noByte else (Memory.read s.storage t).map .someByte) ∧
    (s.drainEnabled = true → exec .drain s = .next s' →
      s'.resp.bind (outcomeCode .drain) =
        if h = t then some .disarmed else (Memory.read s.storage t).map .someByte)

/-! ### The steps with no command -/

/-- TX_DONE is enabled iff `txfree = 0`; it moves the byte to the wire and frees the register, whatever
`txen`, `divisor` and `armed` are; then, if `armed` and `gie` are 1, the drain event is enabled again (R164).
That its turn changes nothing while it is not enabled is the model's choice (log 7). -/
def Obligations.TxDoneFinishesTheByte : Prop :=
  ∀ s : State,
    (s.txfree = true → txDone s = .next s) ∧
    (∀ b, s.txfree = false → s.txreg = some b →
      ∃ t, txDone s = .next t ∧ t = { s with line := s.line ++ [b], txfree := true } ∧
        (s.armed = true → s.gie = true → t.drainEnabled = true))

/-- SYNC_H: the stages shift, the first samples `enc(head)`, and `armed` is set, with the event `Arm`,
exactly when the consumer view goes from empty to non-empty (R136, R139); without synchronisers or
before the cursors have values it changes nothing (log 7). -/
def Obligations.SyncHShiftsAndArms : Prop :=
  ∀ s : State,
    (s.cfg.S = 0 ∨ s.head = none ∨ s.tail = none → syncH s = .next s) ∧
    (∀ h t oldSeen newSeen, 1 ≤ s.cfg.S → s.head = some h → s.tail = some t →
      s.view .c = .ok (oldSeen, t) →
      State.view { s with hs := some (enc s.cfg.C h) :: s.hs.dropLast } .c = .ok (newSeen, t) →
        syncH s = .next { s with
          hs := some (enc s.cfg.C h) :: s.hs.dropLast
          armed := if oldSeen = t ∧ newSeen ≠ t then true else s.armed
          trace := s.trace ++ (if oldSeen = t ∧ newSeen ≠ t then [.arm] else []) })

/-- R137: SYNC_T shifts the tail synchroniser, whose first stage samples `enc(tail)`; it is enabled once the
cursors have values, and writes nothing else. -/
def Obligations.SyncTShiftsOnly : Prop :=
  ∀ (s : State) (h t : Nat) (rest : List (Option Nat)) (last : Option Nat), 1 ≤ s.cfg.S →
    s.head = some h → s.tail = some t → s.ts = rest ++ [last] →
      syncT s = .next { s with ts := some (enc s.cfg.C t) :: rest }

/-- A cursor's value reaches the other side's view after `S` edges of its synchroniser; so in a run fair to
SYNC_T a producer comes to see the room there is (R136, R137, R143, R144). -/
def Obligations.CursorsReachTheOtherSide : Prop :=
  (∀ (s : State) (h t : Nat), s.wf = true → 1 ≤ s.cfg.S → s.head = some h → s.tail = some t →
    (∃ u, syncHTimes s.cfg.S s = .next u ∧ u.view .c = .ok (h, t) ∧ u.head = some h ∧
      u.tail = some t) ∧
    (∃ u, syncTTimes s.cfg.S s = .next u ∧ u.view .p = .ok (h, t) ∧ u.head = some h ∧
      u.tail = some t)) ∧
  (∀ (r : Nat → State) (n h t : Nat), IsRun r → FairSyncT r → (r n).wf = true →
    (r n).ringOrdered = true → 1 ≤ (r n).cfg.S → (r n).head = some h → (r n).tail = some t →
    fullFlag (r n).cfg.C h t = false →
      ∃ m h' t', n ≤ m ∧ (r m).view .p = .ok (h', t') ∧ fullFlag (r m).cfg.C h' t' = false)

/-! ### Frames -/

/-- What INIT and BEGIN leave: every slot, `armed`, the output register, `gie`, the wire, the instance and
the inputs; and INIT leaves the device's configuration (R91, R111; log 28 for rates no word can give). -/
def Obligations.InitAndBeginFrame : Prop :=
  ∀ (s s' : State) (i : Instr), (i = .init ∨ ∃ n, i = .begin n) → exec i s = .next s' →
    (∀ a, Memory.read s'.storage a = Memory.read s.storage a) ∧
    s'.armed = s.armed ∧ s'.txfree = s.txfree ∧ s'.txreg = s.txreg ∧ s'.gie = s.gie ∧
    s'.line = s.line ∧ s'.cfg = s.cfg ∧ s'.issuer = s.issuer ∧ s'.pq = s.pq ∧ s'.cq = s.cq ∧
    s'.sched = s.sched ∧ s'.tick = s.tick ∧
    (i = .init → s'.txen = s.txen ∧ s'.divisor = s.divisor ∧ s'.frame = s.frame)

/-- IS_EMPTY and IS_FULL change nothing but the response (R92, R93). -/
def Obligations.FlagReadsFrame : Prop :=
  ∀ (s s' : State) (i : Instr), (i = .isEmpty ∨ i = .isFull) → exec i s = .next s' →
    (∀ a, Memory.read s'.storage a = Memory.read s.storage a) ∧ { s' with resp := s.resp } = s

/-- What PUT and EMIT leave: every slot but the one at `head`, `tail`, the output register, `gie`, the
device's configuration, the synchronisers, the wire; PUT leaves `armed`, EMIT never clears it; `head` and the
slot at `head` change only together, and only by a store (R94, R112). -/
def Obligations.PutAndEmitFrame : Prop :=
  ∀ (s s' : State) (i : Instr) (b : Byte), (i = .put b ∨ i = .emit b) → exec i s = .next s' →
    (∀ a, s.head ≠ some a → Memory.read s'.storage a = Memory.read s.storage a) ∧
    (∃ h t, s.view .p = .ok (h, t) ∧ s.head = some h ∧
      (fullFlag s.cfg.C h t = true → s'.storage = s.storage ∧ s'.head = s.head) ∧
      (fullFlag s.cfg.C h t = false → s'.head = some (inc s.cfg.C h))) ∧
    s'.tail = s.tail ∧ s'.txfree = s.txfree ∧ s'.txreg = s.txreg ∧ s'.gie = s.gie ∧
    s'.txen = s.txen ∧ s'.divisor = s.divisor ∧ s'.frame = s.frame ∧ s'.hs = s.hs ∧ s'.ts = s.ts ∧
    s'.line = s.line ∧ s'.cfg = s.cfg ∧ s'.issuer = s.issuer ∧ s'.pq = s.pq ∧ s'.cq = s.cq ∧
    s'.sched = s.sched ∧ s'.tick = s.tick ∧
    (i = .put b → s'.armed = s.armed) ∧ (s.armed = true → s'.armed = true)

/-- What GET and DRAIN leave: every slot, `head`, `gie`, the device's configuration, the synchronisers,
the wire; GET leaves `armed` and the output register (R95, R115). -/
def Obligations.GetAndDrainFrame : Prop :=
  ∀ (s s' : State) (i : Instr), (i = .get ∨ i = .drain) → exec i s = .next s' →
    (∀ a, Memory.read s'.storage a = Memory.read s.storage a) ∧
    s'.head = s.head ∧ s'.gie = s.gie ∧ s'.txen = s.txen ∧ s'.divisor = s.divisor ∧
    s'.frame = s.frame ∧ s'.hs = s.hs ∧ s'.ts = s.ts ∧ s'.line = s.line ∧ s'.cfg = s.cfg ∧
    s'.issuer = s.issuer ∧ s'.pq = s.pq ∧ s'.cq = s.cq ∧ s'.sched = s.sched ∧ s'.tick = s.tick ∧
    (i = .get → s'.armed = s.armed ∧ s'.txfree = s.txfree ∧ s'.txreg = s.txreg)

/-! ### Rules about the whole machine -/

/-- No step changes `gie` net, nor the instance's parameters (R34, R113, R29; log 1). -/
def Obligations.NoStepChangesGieOrTheInstance : Prop :=
  ∀ s s' : State, step s = .next s' → s'.gie = s.gie ∧ s'.cfg = s.cfg

/-- R32: `armed` is set only by EMIT with an empty producer view and `S = 0`, or by SYNC_H with `S ≥ 1` when
the consumer view goes from empty to non-empty; it is cleared only by a DRAIN that finds the consumer view
empty; nothing else writes it. -/
def Obligations.OnlyTheEdgesWriteArmed : Prop :=
  (∀ (s s' : State) (i : Instr), exec i s = .next s' →
    (s.armed = false → s'.armed = true →
      s.cfg.S = 0 ∧ (∃ b, i = .emit b) ∧ ∃ h, s.view .p = .ok (h, h)) ∧
    (s.armed = true → s'.armed = false → i = .drain ∧ ∃ h, s.view .c = .ok (h, h))) ∧
  (∀ s s' : State, txDone s = .next s' → s'.armed = s.armed) ∧
  (∀ s s' : State, syncT s = .next s' → s'.armed = s.armed) ∧
  (∀ s s' : State, syncH s = .next s' →
    (s.armed = true → s'.armed = true) ∧
    (s.armed = false → s'.armed = true → 1 ≤ s.cfg.S ∧
      ∃ h t, h ≠ t ∧ s.view .c = .ok (t, t) ∧ s'.view .c = .ok (h, t)))

/-- Ownership: no command on the C port writes `head`, `storage` or a synchroniser; no command on the P
port but INIT and BEGIN writes `tail` (R28, R55). -/
def Obligations.EachPortWritesItsOwn : Prop :=
  ∀ (s s' : State) (i : Instr), exec i s = .next s' →
    (s.issuer = .c → s'.head = s.head ∧ s'.storage = s.storage ∧ s'.hs = s.hs ∧ s'.ts = s.ts) ∧
    (s.issuer = .p → i ≠ .init → (∀ n, i ≠ .begin n) → s'.tail = s.tail)

/-- Every step keeps a state well formed: storage canonical and inside its slots, the cursors in range
or without value together, a code word in every synchroniser stage, a byte in flight while the register is
busy (R24, R40, R142). -/
def Obligations.StepKeepsWellFormed : Prop :=
  ∀ s s' : State, s.wf = true → step s = .next s' → s'.wf = true

/-- Every step keeps the order around the ring: `tail_seen`, `tail`, `head_seen`, `head` within one lap, the
stages in age order (R142 a, b; with `S = 0` no more than the range of the occupancy). -/
def Obligations.StepKeepsTheRingOrder : Prop :=
  ∀ s s' : State, s.wf = true → s.ringOrdered = true → step s = .next s' → s'.ringOrdered = true

/-- Every step keeps first in, first out: since the last INIT the accepted bytes are the taken ones followed
by the queued ones, in order, so every queued slot holds the byte stored in it (R58, R40 c, R59, R98). -/
def Obligations.StepKeepsFirstInFirstOut : Prop :=
  ∀ s s' : State, s.wf = true → s.ringOrdered = true → s.fifo → step s = .next s' → s'.fifo

/-- Every step keeps the count: since the last INIT, `head` is the number of accepted bytes and `tail` the
number of taken ones, modulo `C`; and where first in, first out holds too, their difference is the occupancy,
however often the cursors have wrapped (R98). -/
def Obligations.StepKeepsTheCursorCount : Prop :=
  (∀ s s' : State, s.cursorsCount → step s = .next s' → s'.cursorsCount) ∧
  (∀ (s : State) (h t : Nat), s.fifo → s.head = some h → s.tail = some t →
    (acceptedBytes (sinceInit s.trace)).length =
      (takenBytes (sinceInit s.trace)).length + dist s.cfg.C t h)

/-- Every step keeps the account of the device: the bytes handed to it are the wire, in order, and then
the byte in flight while `txfree = 0` (R40 d, R37 b, R58). -/
def Obligations.StepKeepsTheDeviceAccount : Prop :=
  ∀ s s' : State, s.deviceAccount → step s = .next s' → s'.deviceAccount

/-- While the output register is busy the notification is armed: `armed = 0` and `txfree = 0` together are
never reached (95_test_vectors.md T89). -/
def Obligations.BusyRegisterMeansArmed : Prop :=
  (∀ c : Config, (State.powerOn c).txfree = true) ∧
  ∀ s s' : State, (s.txfree = false → s.armed = true) → step s = .next s' →
    (s'.txfree = false → s'.armed = true)

/-- With synchronisers, a consumer view that is not empty is armed, and every step keeps that (R142 c). -/
def Obligations.NonEmptyConsumerViewIsArmed : Prop :=
  ∀ s s' : State, s.wf = true → 1 ≤ s.cfg.S →
    (∀ h t, s.view .c = .ok (h, t) → h ≠ t → s.armed = true) → step s = .next s' →
      ∀ h t, s'.view .c = .ok (h, t) → h ≠ t → s'.armed = true

/-- Without synchronisers and without a bare PUT, a queue that holds a byte is armed, and every command
keeps that (R40 e). -/
def Obligations.BytesQueuedByEmitAreArmed : Prop :=
  ∀ (s s' : State) (i : Instr), s.wf = true → s.cfg.S = 0 → (∀ b, i ≠ .put b) →
    (s.head ≠ s.tail → s.armed = true) → exec i s = .next s' →
      (s'.head ≠ s'.tail → s'.armed = true)

/-- Hazard 2: without synchronisers, a byte queued while disarmed (by a bare PUT) stays queued and
disarmed under every command but INIT, BEGIN and GET: no EMIT arms and no DRAIN runs (R226, R225). -/
def Obligations.UnarmedQueueIsStuck : Prop :=
  ∀ (s s' : State) (i : Instr), s.wf = true → s.cfg.S = 0 →
    i ≠ .init → i ≠ .get → (∀ n, i ≠ .begin n) →
    s.armed = false → s.head ≠ s.tail → exec i s = .next s' →
      s'.armed = false ∧ s'.head ≠ s'.tail

/-- The views err on the safe side: room seen by the producer is there, and a byte seen by the consumer is
there (R59, R143, R65). -/
def Obligations.ViewsAreConservative : Prop :=
  ∀ (s : State) (h t : Nat), s.wf = true → s.ringOrdered = true →
    s.head = some h → s.tail = some t →
    (∀ t', s.view .p = .ok (h, t') → fullFlag s.cfg.C h t' = false →
      fullFlag s.cfg.C h t = false) ∧
    (∀ h', s.view .c = .ok (h', t) → emptyFlag h' t = false → emptyFlag h t = false)

/-- R97: from any empty buffer, `C−1` PUTs all succeed; then the occupancy is `C−1`, IS_FULL answers 1, and
the next PUT answers 0 and leaves the cursors and every slot as they were. With `S ≥ 1` too, `tail_seen = tail`. -/
def Obligations.CapacityIsOneLessThanC : Prop :=
  ∀ (s : State) (k : Nat) (bytes : List Byte) (b : Byte), s.wf = true → s.issuer = .p →
    s.head = some k → s.tail = some k → s.view .p = .ok (k, k) → bytes.length = s.cfg.C - 1 →
      ∃ t h u, execEach .put bytes s = .next t ∧
        t.trace = s.trace ++ bytes.map .put ∧ t.head = some h ∧ t.tail = some k ∧
        dist s.cfg.C k h = s.cfg.C - 1 ∧
        exec .isFull t = .next { t with resp := some 0x100#9 } ∧
        exec (.put b) t = .next u ∧ u.resp = some 0x000#9 ∧ u.head = t.head ∧ u.tail = t.tail ∧
        ∀ a, Memory.read u.storage a = Memory.read t.storage a

/-- A successful PUT or EMIT appends its byte to the queue; a successful GET or DRAIN removes the oldest and
answers with it (R27, R94, R95, R112, R115). -/
def Obligations.CommandsActOnTheQueue : Prop :=
  ∀ s s' : State, s.wf = true → s.ringOrdered = true →
    (∀ i b, (i = .put b ∨ i = .emit b) → exec i s = .next s' → s'.head ≠ s.head →
      s'.queue = s.queue ++ [some b]) ∧
    (∀ i, (i = .get ∨ i = .drain) → exec i s = .next s' → s'.tail ≠ s.tail →
      ∃ b, s.queue = some b :: s'.queue ∧ s'.resp = some (0x100#9 + b.setWidth 9))

/-- Arming is edge-triggered, without synchronisers and with `C ≥ 2`: of two EMITs in succession the second
does not arm; and an EMIT after a DRAIN that disarmed arms again (R118). -/
def Obligations.ArmingIsEdgeTriggered : Prop :=
  (∀ (s t u : State) (a b : Byte), s.wf = true → s.cfg.S = 0 → 2 ≤ s.cfg.C →
    exec (.emit a) s = .next t → exec (.emit b) t = .next u →
      u.armed = t.armed ∧ (u.trace = t.trace ++ [.put b] ∨ u.trace = t.trace ++ [.drop b])) ∧
  (∀ (s t : State) (b : Byte), s.wf = true → s.cfg.S = 0 → 2 ≤ s.cfg.C →
    exec .drain s = .next t → s.armed = true → t.armed = false →
      ∃ u, exec (.emit b) { t with issuer := .p } = .next u ∧ u.armed = true ∧
        u.trace = t.trace ++ [.put b, .arm])

/-- The restart loop empties the queue: without synchronisers, from an enabled drain event, one DRAIN and
one TX_DONE for each queued byte put the queue on the wire in order; the next DRAIN disarms, and with nothing
more to issue the state is final (R117, R118, R234). -/
def Obligations.QueueDrainsToIdle : Prop :=
  ∀ s : State, s.wf = true → s.fifo → s.cfg.S = 0 → s.issuer = .c → s.drainEnabled = true →
    ∃ t u, drainRounds s.queue.length s = .next t ∧
      t.line.map some = s.line.map some ++ s.queue ∧ t.queue = [] ∧
      exec .drain t = .next u ∧ u.armed = false ∧ u.line = t.line ∧ u.head = u.tail ∧
      (s.pq = [] → u.final = true)

/-- In a state that meets the invariants and whose cursors have values, no command and no step faults: no slot
is read before it is written, and DRAIN has no failing path (R40 c, R64, R206). -/
def Obligations.NothingFaultsAfterInitialisation : Prop :=
  ∀ s : State, s.wf = true → s.ringOrdered = true → s.fifo → s.head.isSome = true →
    (∀ i f, exec i s ≠ .fault f) ∧ ∀ f, step s ≠ .fault f

/-- In a run fair to the device, the byte in flight reaches the wire next (R233, R164). -/
def Obligations.FairRunsFinishTheByteInFlight : Prop :=
  ∀ (r : Nat → State) (n : Nat) (b : Byte), IsRun r → FairTxDone r →
    (r n).txfree = false → (r n).txreg = some b →
      ∃ m, n < m ∧ (r m).txfree = true ∧ (r m).line = (r n).line ++ [b]

/-- In a run fair to the consumer, an enabled drain event stays enabled until a DRAIN is attempted, which
happens (R116, R233). -/
def Obligations.FairRunsTakeTheDrainEvent : Prop :=
  ∀ (r : Nat → State) (n : Nat), IsRun r → FairDrain r → (r n).drainEnabled = true →
    ∃ m, n ≤ m ∧ (r m).attemptsDrain ∧ ∀ k, n ≤ k → k ≤ m → (r k).drainEnabled = true

/-- Every accepted byte reaches the wire, for every `S`: in a run that is fair to DRAIN, TX_DONE and SYNC_H
and in which the driver keeps to its commands, from any state that meets the invariants with interrupts on
(R233 assumes `gie = 1`), the byte being sent and every queued byte come to stand on the wire, in order, right
after what stands there (R144, R233, R58). -/
def Obligations.FairRunsDeliverEveryByte : Prop :=
  ∀ (r : Nat → State) (n : Nat), IsRun r → FairDrain r → FairTxDone r → FairSyncH r →
    (r n).wf = true → (r n).ringOrdered = true → (r n).fifo → (r n).armedForBytes →
    (r n).gie = true → (∀ m, n ≤ m → (r m).keepsToDriver) →
      ∃ m rest, n ≤ m ∧ (r m).line.map some = (r n).line.map some ++ (r n).owed ++ rest

/-! ### The print helpers -/

/-- PRINT emits the bytes of its text, in order, for a text without 0x00 (R176; the terminator: log 15), and
the `LN` forms append `'\r'`, `'\n'` to what the form without emits (R177, R179, R181; log 28 for integers outside int32). -/
def Obligations.PrintAndLineEndings : Prop :=
  (∀ text : List Byte, (∀ b, b ∈ text → b ≠ 0x00#8) →
    callBytes (.print text) = .ok text ∧ callBytes (.println text) = .ok (text ++ [0x0D#8, 0x0A#8])) ∧
  (∀ (n : Int) (bytes : List Byte), callBytes (.printInt n) = .ok bytes →
    callBytes (.printIntLn n) = .ok (bytes ++ [0x0D#8, 0x0A#8])) ∧
  (∀ (v : BitVec 32) (dp : Byte) (bytes : List Byte), callBytes (.printFloat v dp) = .ok bytes →
    callBytes (.printFloatLn v dp) = .ok (bytes ++ [0x0D#8, 0x0A#8]))

/-- R178: PRINT_INT emits `'-'` when negative and then the decimal digits of the magnitude, most significant
first, at most 10, with no leading zeros and no separators; `'0'` for zero. -/
def Obligations.PrintIntIsDecimal : Prop :=
  ∀ n : Int, -2147483648 ≤ n → n ≤ 2147483647 →
    ∃ ds : List Nat,
      callBytes (.printInt n) =
        .ok ((if n < 0 then [0x2D#8] else []) ++ ds.map (fun d => BitVec.ofNat 8 (0x30 + d))) ∧
      (∀ d, d ∈ ds → d < 10) ∧ ds.length ≤ 10 ∧ ds ≠ [] ∧
      ds.foldl (fun acc d => acc * 10 + d) 0 = n.natAbs ∧
      (n = 0 → ds = [0]) ∧ (n ≠ 0 → ds.head? ≠ some 0)

/-- PRINT_FLOAT of a value in range emits the sign of a value below 0, the truncated integer part, and for
`dp > 0` a `'.'` and `dp` digits, each of them 0 to 9: with `f` the fraction, in units of 2^-149, the next digit is
`trunc` of `f * 10` rounded once to binary32, and the next `f` is what is left (R180, R184). `roundUnits` is that
rounding: to the nearest multiple of the last of 24 significant bits, ties to the even one (R184; log 14). -/
def Obligations.PrintFloatEmitsDigits : Prop :=
  (∀ n cut : Nat, ((n < 2 ^ 24 ∧ cut = 0) ∨ (2 ^ (23 + cut) ≤ n ∧ n < 2 ^ (24 + cut))) →
    ∃ k, roundUnits n = k * 2 ^ cut ∧
      2 * n ≤ 2 * roundUnits n + 2 ^ cut ∧ 2 * roundUnits n ≤ 2 * n + 2 ^ cut ∧
      (2 * n = 2 * roundUnits n + 2 ^ cut ∨ 2 * roundUnits n = 2 * n + 2 ^ cut → k % 2 = 0)) ∧
  (∀ (v : BitVec 32) (dp : Byte), isPrintableFloat v = true →
    ∃ (ds : List Nat) (f : Nat → Nat),
      callBytes (.printFloat v dp) =
        .ok ((if floatSign v = true ∧ floatUnits v ≠ 0 then [0x2D#8] else []) ++
          printIntBytes ((floatUnits v / 2 ^ 149 : Nat) : Int) ++
          (if dp.toNat = 0 then [] else [0x2E#8]) ++
          ds.map (fun d => BitVec.ofNat 8 (0x30 + d))) ∧
      ds.length = dp.toNat ∧ floatUnits v / 2 ^ 149 < 2147483648 ∧
      f 0 = floatUnits v % 2 ^ 149 ∧
      ∀ k d, ds[k]? = some d →
        d = roundUnits (f k * 10) / 2 ^ 149 ∧ d < 10 ∧
          f (k + 1) = roundUnits (f k * 10) - d * 2 ^ 149)

/-- PRINT_FLOAT and PRINT_FLOAT_LN are refused for exactly NaN, the infinities and the magnitudes of 2^31 and
more, which are the words whose exponent field is 158 or more (R184). -/
def Obligations.FloatRangeIsRefused : Prop :=
  ∀ (v : BitVec 32) (dp : Byte),
    (isPrintableFloat v = false ↔ callBytes (.printFloat v dp) = .error .floatRange) ∧
    (isPrintableFloat v = false ↔ callBytes (.printFloatLn v dp) = .error .floatRange) ∧
    (isPrintableFloat v = true ↔
      (v.extractLsb' 23 8).toNat ≠ 255 ∧ floatUnits v < 2 ^ 31 * 2 ^ 149)
end

