-- ==== Sys2Proof/Laws/Decode.lean ====
section
/-! SUPPORT. The fields of a command word and of format B's argument, taken apart and put together
(spec/30_encoding.md R72, R74). -/

namespace Sys2Proof

/-- A vector of `n + m` bits is its high part followed by its low part. -/
theorem BitVec_high_append_low {n m : Nat} (x : BitVec (n + m)) :
    x.extractLsb' m n ++ x.extractLsb' 0 m = x := by
  ext k hk
  rw [BitVec.getElem_append]
  split
  · simp [BitVec.getLsbD_eq_getElem hk]
  · rw [BitVec.getElem_extractLsb', show m + (k - m) = k by omega, BitVec.getLsbD_eq_getElem hk]

theorem BitVec_append_high {n m : Nat} (a : BitVec n) (x : BitVec m) :
    (a ++ x).extractLsb' m n = a := by
  ext k hk
  simp [BitVec.getLsbD_append, BitVec.getLsbD_eq_getElem hk]

theorem BitVec_append_low {n m : Nat} (a : BitVec n) (x : BitVec m) :
    (a ++ x).extractLsb' 0 m = x := by
  ext k hk
  simp [BitVec.getLsbD_append, hk]

/-- The opcode of an encoded command. -/
theorem opField_encode (i : Instr) : opField (encode i) = i.opcode := BitVec_append_high _ _

/-- The argument of an encoded command. -/
theorem argField_encode (i : Instr) : argField (encode i) = i.arg := BitVec_append_low _ _

/-- A word with a command's opcode and argument is that command's word. -/
theorem encode_eq_of_fields {i : Instr} {w : CmdWord} (ho : opField w = i.opcode)
    (ha : argField w = i.arg) : encode i = w := by
  have h : (opField w ++ argField w : BitVec (8 + 32)) = w := BitVec_high_append_low (n := 8) (m := 32) w
  rw [← h, ho, ha]
  rfl

/-- Format B's argument: the high bits are zero and the low ones are the byte. -/
theorem argB_high (b : Byte) : (0#24 ++ b : BitVec 32).extractLsb' 8 24 = 0 := BitVec_append_high 0#24 b

theorem argB_low (b : Byte) : (0#24 ++ b : BitVec 32).extractLsb' 0 8 = b := BitVec_append_low 0#24 b

/-- An argument whose high bits are zero is its byte, extended. -/
theorem argB_of_high {x : BitVec 32} (h : x.extractLsb' 8 24 = 0) :
    (0#24 ++ x.extractLsb' 0 8 : BitVec 32) = x := by
  have hx : (x.extractLsb' 8 24 ++ x.extractLsb' 0 8 : BitVec (24 + 8)) = x :=
    BitVec_high_append_low (n := 24) (m := 8) x
  rw [h] at hx
  exact hx

end Sys2Proof
end

