-- ==== Sys2Proof/Laws/Memory.lean ====
section
/-! SUPPORT. The laws of storage: a read after a write, and that a write keeps the canonical form and
the range of the slots. -/

namespace Sys2Proof.Machine

theorem Memory.read_write_same (m : Memory) (a : Nat) (b : Byte) :
    Memory.read (Memory.write m a b) a = some b := by
  induction m with
  | nil => simp [Memory.write, Memory.read]
  | cons cell m ih =>
    obtain ⟨k, v⟩ := cell
    simp only [Memory.write]
    split
    · simp [Memory.read]
    · split
      · simp [Memory.read]
      · rename_i h1 h2
        simp [Memory.read, Ne.symm h2, ih]

theorem Memory.read_write_other (m : Memory) (a x : Nat) (b : Byte) (hx : x ≠ a) :
    Memory.read (Memory.write m a b) x = Memory.read m x := by
  induction m with
  | nil => simp [Memory.write, Memory.read, Ne.symm hx]
  | cons cell m ih =>
    obtain ⟨k, v⟩ := cell
    simp only [Memory.write]
    split
    · simp [Memory.read, Ne.symm hx]
    · split
      · rename_i h1 h2
        subst h2
        simp [Memory.read, Ne.symm hx]
      · simp [Memory.read, ih]

theorem Memory.startsAbove_write (m : Memory) (a k : Nat) (b : Byte) (hk : k < a)
    (h : Memory.startsAbove k m = true) : Memory.startsAbove k (Memory.write m a b) = true := by
  cases m with
  | nil => simpa [Memory.write, Memory.startsAbove] using hk
  | cons cell m =>
    obtain ⟨j, v⟩ := cell
    simp only [Memory.write]
    split
    · simpa [Memory.startsAbove] using hk
    · split
      · simpa [Memory.startsAbove] using hk
      · simpa [Memory.startsAbove] using h

/-- A write keeps the canonical form. -/
theorem Memory.wf_write (m : Memory) (a : Nat) (b : Byte) (h : Memory.wf m = true) :
    Memory.wf (Memory.write m a b) = true := by
  induction m with
  | nil => simp [Memory.write, Memory.wf, Memory.startsAbove]
  | cons cell m ih =>
    obtain ⟨k, v⟩ := cell
    simp only [Memory.wf, Bool.and_eq_true] at h
    simp only [Memory.write]
    split
    · rename_i h1
      simp only [Memory.wf, Bool.and_eq_true]
      exact ⟨by simpa [Memory.startsAbove] using h1, h⟩
    · split
      · rename_i h1 h2
        subst h2
        simp [Memory.wf, h]
      · rename_i h1 h2
        simp only [Memory.wf, Bool.and_eq_true]
        exact ⟨Memory.startsAbove_write m a k b (by omega) h.1, ih h.2⟩

/-- A write to a slot keeps every listed address a slot. -/
theorem Memory.within_write (C : Nat) (m : Memory) (a : Nat) (b : Byte) (ha : a < C)
    (h : Memory.within C m = true) : Memory.within C (Memory.write m a b) = true := by
  induction m with
  | nil => simpa [Memory.write, Memory.within] using ha
  | cons cell m ih =>
    obtain ⟨k, v⟩ := cell
    simp only [Memory.within, List.all_cons, Bool.and_eq_true, decide_eq_true_eq] at h ih
    simp only [Memory.write]
    split
    · simp only [Memory.within, List.all_cons, Bool.and_eq_true, decide_eq_true_eq]
      exact ⟨ha, h⟩
    · split
      · simp only [Memory.within, List.all_cons, Bool.and_eq_true, decide_eq_true_eq]
        exact ⟨ha, h.2⟩
      · simp only [Memory.within, List.all_cons, Bool.and_eq_true, decide_eq_true_eq]
        exact ⟨h.1, ih h.2⟩

end Sys2Proof.Machine
end

