-- ==== Sys2Proof/Laws/State.lean ====
section
/-! SUPPORT. What each update of the state does to each field: one lemma per field per update, so that
no later proof unfolds a record update. -/

namespace Sys2Proof.Machine

@[simp] theorem State.setStorage_cfg (s : State) (m : Memory) : (s.setStorage m).cfg = s.cfg := rfl
@[simp] theorem State.setStorage_storage (s : State) (m : Memory) : (s.setStorage m).storage = m := rfl
@[simp] theorem State.setStorage_head (s : State) (m : Memory) : (s.setStorage m).head = s.head := rfl
@[simp] theorem State.setStorage_tail (s : State) (m : Memory) : (s.setStorage m).tail = s.tail := rfl
@[simp] theorem State.setStorage_armed (s : State) (m : Memory) : (s.setStorage m).armed = s.armed := rfl
@[simp] theorem State.setStorage_txfree (s : State) (m : Memory) : (s.setStorage m).txfree = s.txfree := rfl
@[simp] theorem State.setStorage_txreg (s : State) (m : Memory) : (s.setStorage m).txreg = s.txreg := rfl
@[simp] theorem State.setStorage_gie (s : State) (m : Memory) : (s.setStorage m).gie = s.gie := rfl
@[simp] theorem State.setStorage_txen (s : State) (m : Memory) : (s.setStorage m).txen = s.txen := rfl
@[simp] theorem State.setStorage_divisor (s : State) (m : Memory) : (s.setStorage m).divisor = s.divisor := rfl
@[simp] theorem State.setStorage_frame (s : State) (m : Memory) : (s.setStorage m).frame = s.frame := rfl
@[simp] theorem State.setStorage_hs (s : State) (m : Memory) : (s.setStorage m).hs = s.hs := rfl
@[simp] theorem State.setStorage_ts (s : State) (m : Memory) : (s.setStorage m).ts = s.ts := rfl
@[simp] theorem State.setStorage_line (s : State) (m : Memory) : (s.setStorage m).line = s.line := rfl
@[simp] theorem State.setStorage_trace (s : State) (m : Memory) : (s.setStorage m).trace = s.trace := rfl
@[simp] theorem State.setStorage_resp (s : State) (m : Memory) : (s.setStorage m).resp = s.resp := rfl
@[simp] theorem State.setStorage_issuer (s : State) (m : Memory) : (s.setStorage m).issuer = s.issuer := rfl
@[simp] theorem State.setStorage_pq (s : State) (m : Memory) : (s.setStorage m).pq = s.pq := rfl
@[simp] theorem State.setStorage_cq (s : State) (m : Memory) : (s.setStorage m).cq = s.cq := rfl
@[simp] theorem State.setStorage_sched (s : State) (m : Memory) : (s.setStorage m).sched = s.sched := rfl
@[simp] theorem State.setStorage_tick (s : State) (m : Memory) : (s.setStorage m).tick = s.tick := rfl

@[simp] theorem State.setHead_cfg (s : State) (h : Nat) : (s.setHead h).cfg = s.cfg := rfl
@[simp] theorem State.setHead_storage (s : State) (h : Nat) : (s.setHead h).storage = s.storage := rfl
@[simp] theorem State.setHead_head (s : State) (h : Nat) : (s.setHead h).head = some h := rfl
@[simp] theorem State.setHead_tail (s : State) (h : Nat) : (s.setHead h).tail = s.tail := rfl
@[simp] theorem State.setHead_armed (s : State) (h : Nat) : (s.setHead h).armed = s.armed := rfl
@[simp] theorem State.setHead_txfree (s : State) (h : Nat) : (s.setHead h).txfree = s.txfree := rfl
@[simp] theorem State.setHead_txreg (s : State) (h : Nat) : (s.setHead h).txreg = s.txreg := rfl
@[simp] theorem State.setHead_gie (s : State) (h : Nat) : (s.setHead h).gie = s.gie := rfl
@[simp] theorem State.setHead_txen (s : State) (h : Nat) : (s.setHead h).txen = s.txen := rfl
@[simp] theorem State.setHead_divisor (s : State) (h : Nat) : (s.setHead h).divisor = s.divisor := rfl
@[simp] theorem State.setHead_frame (s : State) (h : Nat) : (s.setHead h).frame = s.frame := rfl
@[simp] theorem State.setHead_hs (s : State) (h : Nat) : (s.setHead h).hs = s.hs := rfl
@[simp] theorem State.setHead_ts (s : State) (h : Nat) : (s.setHead h).ts = s.ts := rfl
@[simp] theorem State.setHead_line (s : State) (h : Nat) : (s.setHead h).line = s.line := rfl
@[simp] theorem State.setHead_trace (s : State) (h : Nat) : (s.setHead h).trace = s.trace := rfl
@[simp] theorem State.setHead_resp (s : State) (h : Nat) : (s.setHead h).resp = s.resp := rfl
@[simp] theorem State.setHead_issuer (s : State) (h : Nat) : (s.setHead h).issuer = s.issuer := rfl
@[simp] theorem State.setHead_pq (s : State) (h : Nat) : (s.setHead h).pq = s.pq := rfl
@[simp] theorem State.setHead_cq (s : State) (h : Nat) : (s.setHead h).cq = s.cq := rfl
@[simp] theorem State.setHead_sched (s : State) (h : Nat) : (s.setHead h).sched = s.sched := rfl
@[simp] theorem State.setHead_tick (s : State) (h : Nat) : (s.setHead h).tick = s.tick := rfl

@[simp] theorem State.setTail_cfg (s : State) (t : Nat) : (s.setTail t).cfg = s.cfg := rfl
@[simp] theorem State.setTail_storage (s : State) (t : Nat) : (s.setTail t).storage = s.storage := rfl
@[simp] theorem State.setTail_head (s : State) (t : Nat) : (s.setTail t).head = s.head := rfl
@[simp] theorem State.setTail_tail (s : State) (t : Nat) : (s.setTail t).tail = some t := rfl
@[simp] theorem State.setTail_armed (s : State) (t : Nat) : (s.setTail t).armed = s.armed := rfl
@[simp] theorem State.setTail_txfree (s : State) (t : Nat) : (s.setTail t).txfree = s.txfree := rfl
@[simp] theorem State.setTail_txreg (s : State) (t : Nat) : (s.setTail t).txreg = s.txreg := rfl
@[simp] theorem State.setTail_gie (s : State) (t : Nat) : (s.setTail t).gie = s.gie := rfl
@[simp] theorem State.setTail_txen (s : State) (t : Nat) : (s.setTail t).txen = s.txen := rfl
@[simp] theorem State.setTail_divisor (s : State) (t : Nat) : (s.setTail t).divisor = s.divisor := rfl
@[simp] theorem State.setTail_frame (s : State) (t : Nat) : (s.setTail t).frame = s.frame := rfl
@[simp] theorem State.setTail_hs (s : State) (t : Nat) : (s.setTail t).hs = s.hs := rfl
@[simp] theorem State.setTail_ts (s : State) (t : Nat) : (s.setTail t).ts = s.ts := rfl
@[simp] theorem State.setTail_line (s : State) (t : Nat) : (s.setTail t).line = s.line := rfl
@[simp] theorem State.setTail_trace (s : State) (t : Nat) : (s.setTail t).trace = s.trace := rfl
@[simp] theorem State.setTail_resp (s : State) (t : Nat) : (s.setTail t).resp = s.resp := rfl
@[simp] theorem State.setTail_issuer (s : State) (t : Nat) : (s.setTail t).issuer = s.issuer := rfl
@[simp] theorem State.setTail_pq (s : State) (t : Nat) : (s.setTail t).pq = s.pq := rfl
@[simp] theorem State.setTail_cq (s : State) (t : Nat) : (s.setTail t).cq = s.cq := rfl
@[simp] theorem State.setTail_sched (s : State) (t : Nat) : (s.setTail t).sched = s.sched := rfl
@[simp] theorem State.setTail_tick (s : State) (t : Nat) : (s.setTail t).tick = s.tick := rfl

@[simp] theorem State.setArmed_cfg (s : State) (b : Bool) : (s.setArmed b).cfg = s.cfg := rfl
@[simp] theorem State.setArmed_storage (s : State) (b : Bool) : (s.setArmed b).storage = s.storage := rfl
@[simp] theorem State.setArmed_head (s : State) (b : Bool) : (s.setArmed b).head = s.head := rfl
@[simp] theorem State.setArmed_tail (s : State) (b : Bool) : (s.setArmed b).tail = s.tail := rfl
@[simp] theorem State.setArmed_armed (s : State) (b : Bool) : (s.setArmed b).armed = b := rfl
@[simp] theorem State.setArmed_txfree (s : State) (b : Bool) : (s.setArmed b).txfree = s.txfree := rfl
@[simp] theorem State.setArmed_txreg (s : State) (b : Bool) : (s.setArmed b).txreg = s.txreg := rfl
@[simp] theorem State.setArmed_gie (s : State) (b : Bool) : (s.setArmed b).gie = s.gie := rfl
@[simp] theorem State.setArmed_txen (s : State) (b : Bool) : (s.setArmed b).txen = s.txen := rfl
@[simp] theorem State.setArmed_divisor (s : State) (b : Bool) : (s.setArmed b).divisor = s.divisor := rfl
@[simp] theorem State.setArmed_frame (s : State) (b : Bool) : (s.setArmed b).frame = s.frame := rfl
@[simp] theorem State.setArmed_hs (s : State) (b : Bool) : (s.setArmed b).hs = s.hs := rfl
@[simp] theorem State.setArmed_ts (s : State) (b : Bool) : (s.setArmed b).ts = s.ts := rfl
@[simp] theorem State.setArmed_line (s : State) (b : Bool) : (s.setArmed b).line = s.line := rfl
@[simp] theorem State.setArmed_trace (s : State) (b : Bool) : (s.setArmed b).trace = s.trace := rfl
@[simp] theorem State.setArmed_resp (s : State) (b : Bool) : (s.setArmed b).resp = s.resp := rfl
@[simp] theorem State.setArmed_issuer (s : State) (b : Bool) : (s.setArmed b).issuer = s.issuer := rfl
@[simp] theorem State.setArmed_pq (s : State) (b : Bool) : (s.setArmed b).pq = s.pq := rfl
@[simp] theorem State.setArmed_cq (s : State) (b : Bool) : (s.setArmed b).cq = s.cq := rfl
@[simp] theorem State.setArmed_sched (s : State) (b : Bool) : (s.setArmed b).sched = s.sched := rfl
@[simp] theorem State.setArmed_tick (s : State) (b : Bool) : (s.setArmed b).tick = s.tick := rfl

@[simp] theorem State.setGie_cfg (s : State) (b : Bool) : (s.setGie b).cfg = s.cfg := rfl
@[simp] theorem State.setGie_storage (s : State) (b : Bool) : (s.setGie b).storage = s.storage := rfl
@[simp] theorem State.setGie_head (s : State) (b : Bool) : (s.setGie b).head = s.head := rfl
@[simp] theorem State.setGie_tail (s : State) (b : Bool) : (s.setGie b).tail = s.tail := rfl
@[simp] theorem State.setGie_armed (s : State) (b : Bool) : (s.setGie b).armed = s.armed := rfl
@[simp] theorem State.setGie_txfree (s : State) (b : Bool) : (s.setGie b).txfree = s.txfree := rfl
@[simp] theorem State.setGie_txreg (s : State) (b : Bool) : (s.setGie b).txreg = s.txreg := rfl
@[simp] theorem State.setGie_gie (s : State) (b : Bool) : (s.setGie b).gie = b := rfl
@[simp] theorem State.setGie_txen (s : State) (b : Bool) : (s.setGie b).txen = s.txen := rfl
@[simp] theorem State.setGie_divisor (s : State) (b : Bool) : (s.setGie b).divisor = s.divisor := rfl
@[simp] theorem State.setGie_frame (s : State) (b : Bool) : (s.setGie b).frame = s.frame := rfl
@[simp] theorem State.setGie_hs (s : State) (b : Bool) : (s.setGie b).hs = s.hs := rfl
@[simp] theorem State.setGie_ts (s : State) (b : Bool) : (s.setGie b).ts = s.ts := rfl
@[simp] theorem State.setGie_line (s : State) (b : Bool) : (s.setGie b).line = s.line := rfl
@[simp] theorem State.setGie_trace (s : State) (b : Bool) : (s.setGie b).trace = s.trace := rfl
@[simp] theorem State.setGie_resp (s : State) (b : Bool) : (s.setGie b).resp = s.resp := rfl
@[simp] theorem State.setGie_issuer (s : State) (b : Bool) : (s.setGie b).issuer = s.issuer := rfl
@[simp] theorem State.setGie_pq (s : State) (b : Bool) : (s.setGie b).pq = s.pq := rfl
@[simp] theorem State.setGie_cq (s : State) (b : Bool) : (s.setGie b).cq = s.cq := rfl
@[simp] theorem State.setGie_sched (s : State) (b : Bool) : (s.setGie b).sched = s.sched := rfl
@[simp] theorem State.setGie_tick (s : State) (b : Bool) : (s.setGie b).tick = s.tick := rfl

@[simp] theorem State.configure_cfg (s : State) (d : Int) (f : FrameFormat) : (s.configure d f).cfg = s.cfg := rfl
@[simp] theorem State.configure_storage (s : State) (d : Int) (f : FrameFormat) : (s.configure d f).storage = s.storage := rfl
@[simp] theorem State.configure_head (s : State) (d : Int) (f : FrameFormat) : (s.configure d f).head = s.head := rfl
@[simp] theorem State.configure_tail (s : State) (d : Int) (f : FrameFormat) : (s.configure d f).tail = s.tail := rfl
@[simp] theorem State.configure_armed (s : State) (d : Int) (f : FrameFormat) : (s.configure d f).armed = s.armed := rfl
@[simp] theorem State.configure_txfree (s : State) (d : Int) (f : FrameFormat) : (s.configure d f).txfree = s.txfree := rfl
@[simp] theorem State.configure_txreg (s : State) (d : Int) (f : FrameFormat) : (s.configure d f).txreg = s.txreg := rfl
@[simp] theorem State.configure_gie (s : State) (d : Int) (f : FrameFormat) : (s.configure d f).gie = s.gie := rfl
@[simp] theorem State.configure_txen (s : State) (d : Int) (f : FrameFormat) : (s.configure d f).txen = s.txen := rfl
@[simp] theorem State.configure_divisor (s : State) (d : Int) (f : FrameFormat) : (s.configure d f).divisor = some d := rfl
@[simp] theorem State.configure_frame (s : State) (d : Int) (f : FrameFormat) : (s.configure d f).frame = f := rfl
@[simp] theorem State.configure_hs (s : State) (d : Int) (f : FrameFormat) : (s.configure d f).hs = s.hs := rfl
@[simp] theorem State.configure_ts (s : State) (d : Int) (f : FrameFormat) : (s.configure d f).ts = s.ts := rfl
@[simp] theorem State.configure_line (s : State) (d : Int) (f : FrameFormat) : (s.configure d f).line = s.line := rfl
@[simp] theorem State.configure_trace (s : State) (d : Int) (f : FrameFormat) : (s.configure d f).trace = s.trace := rfl
@[simp] theorem State.configure_resp (s : State) (d : Int) (f : FrameFormat) : (s.configure d f).resp = s.resp := rfl
@[simp] theorem State.configure_issuer (s : State) (d : Int) (f : FrameFormat) : (s.configure d f).issuer = s.issuer := rfl
@[simp] theorem State.configure_pq (s : State) (d : Int) (f : FrameFormat) : (s.configure d f).pq = s.pq := rfl
@[simp] theorem State.configure_cq (s : State) (d : Int) (f : FrameFormat) : (s.configure d f).cq = s.cq := rfl
@[simp] theorem State.configure_sched (s : State) (d : Int) (f : FrameFormat) : (s.configure d f).sched = s.sched := rfl
@[simp] theorem State.configure_tick (s : State) (d : Int) (f : FrameFormat) : (s.configure d f).tick = s.tick := rfl

@[simp] theorem State.enableTransmitter_cfg (s : State) : s.enableTransmitter.cfg = s.cfg := rfl
@[simp] theorem State.enableTransmitter_storage (s : State) : s.enableTransmitter.storage = s.storage := rfl
@[simp] theorem State.enableTransmitter_head (s : State) : s.enableTransmitter.head = s.head := rfl
@[simp] theorem State.enableTransmitter_tail (s : State) : s.enableTransmitter.tail = s.tail := rfl
@[simp] theorem State.enableTransmitter_armed (s : State) : s.enableTransmitter.armed = s.armed := rfl
@[simp] theorem State.enableTransmitter_txfree (s : State) : s.enableTransmitter.txfree = s.txfree := rfl
@[simp] theorem State.enableTransmitter_txreg (s : State) : s.enableTransmitter.txreg = s.txreg := rfl
@[simp] theorem State.enableTransmitter_gie (s : State) : s.enableTransmitter.gie = s.gie := rfl
@[simp] theorem State.enableTransmitter_txen (s : State) : s.enableTransmitter.txen = true := rfl
@[simp] theorem State.enableTransmitter_divisor (s : State) : s.enableTransmitter.divisor = s.divisor := rfl
@[simp] theorem State.enableTransmitter_frame (s : State) : s.enableTransmitter.frame = s.frame := rfl
@[simp] theorem State.enableTransmitter_hs (s : State) : s.enableTransmitter.hs = s.hs := rfl
@[simp] theorem State.enableTransmitter_ts (s : State) : s.enableTransmitter.ts = s.ts := rfl
@[simp] theorem State.enableTransmitter_line (s : State) : s.enableTransmitter.line = s.line := rfl
@[simp] theorem State.enableTransmitter_trace (s : State) : s.enableTransmitter.trace = s.trace := rfl
@[simp] theorem State.enableTransmitter_resp (s : State) : s.enableTransmitter.resp = s.resp := rfl
@[simp] theorem State.enableTransmitter_issuer (s : State) : s.enableTransmitter.issuer = s.issuer := rfl
@[simp] theorem State.enableTransmitter_pq (s : State) : s.enableTransmitter.pq = s.pq := rfl
@[simp] theorem State.enableTransmitter_cq (s : State) : s.enableTransmitter.cq = s.cq := rfl
@[simp] theorem State.enableTransmitter_sched (s : State) : s.enableTransmitter.sched = s.sched := rfl
@[simp] theorem State.enableTransmitter_tick (s : State) : s.enableTransmitter.tick = s.tick := rfl

@[simp] theorem State.writeOutputRegister_cfg (s : State) (b : Byte) : (s.writeOutputRegister b).cfg = s.cfg := rfl
@[simp] theorem State.writeOutputRegister_storage (s : State) (b : Byte) : (s.writeOutputRegister b).storage = s.storage := rfl
@[simp] theorem State.writeOutputRegister_head (s : State) (b : Byte) : (s.writeOutputRegister b).head = s.head := rfl
@[simp] theorem State.writeOutputRegister_tail (s : State) (b : Byte) : (s.writeOutputRegister b).tail = s.tail := rfl
@[simp] theorem State.writeOutputRegister_armed (s : State) (b : Byte) : (s.writeOutputRegister b).armed = s.armed := rfl
@[simp] theorem State.writeOutputRegister_txfree (s : State) (b : Byte) : (s.writeOutputRegister b).txfree = false := rfl
@[simp] theorem State.writeOutputRegister_txreg (s : State) (b : Byte) : (s.writeOutputRegister b).txreg = some b := rfl
@[simp] theorem State.writeOutputRegister_gie (s : State) (b : Byte) : (s.writeOutputRegister b).gie = s.gie := rfl
@[simp] theorem State.writeOutputRegister_txen (s : State) (b : Byte) : (s.writeOutputRegister b).txen = s.txen := rfl
@[simp] theorem State.writeOutputRegister_divisor (s : State) (b : Byte) : (s.writeOutputRegister b).divisor = s.divisor := rfl
@[simp] theorem State.writeOutputRegister_frame (s : State) (b : Byte) : (s.writeOutputRegister b).frame = s.frame := rfl
@[simp] theorem State.writeOutputRegister_hs (s : State) (b : Byte) : (s.writeOutputRegister b).hs = s.hs := rfl
@[simp] theorem State.writeOutputRegister_ts (s : State) (b : Byte) : (s.writeOutputRegister b).ts = s.ts := rfl
@[simp] theorem State.writeOutputRegister_line (s : State) (b : Byte) : (s.writeOutputRegister b).line = s.line := rfl
@[simp] theorem State.writeOutputRegister_trace (s : State) (b : Byte) : (s.writeOutputRegister b).trace = s.trace := rfl
@[simp] theorem State.writeOutputRegister_resp (s : State) (b : Byte) : (s.writeOutputRegister b).resp = s.resp := rfl
@[simp] theorem State.writeOutputRegister_issuer (s : State) (b : Byte) : (s.writeOutputRegister b).issuer = s.issuer := rfl
@[simp] theorem State.writeOutputRegister_pq (s : State) (b : Byte) : (s.writeOutputRegister b).pq = s.pq := rfl
@[simp] theorem State.writeOutputRegister_cq (s : State) (b : Byte) : (s.writeOutputRegister b).cq = s.cq := rfl
@[simp] theorem State.writeOutputRegister_sched (s : State) (b : Byte) : (s.writeOutputRegister b).sched = s.sched := rfl
@[simp] theorem State.writeOutputRegister_tick (s : State) (b : Byte) : (s.writeOutputRegister b).tick = s.tick := rfl

@[simp] theorem State.finishByte_cfg (s : State) (b : Byte) : (s.finishByte b).cfg = s.cfg := rfl
@[simp] theorem State.finishByte_storage (s : State) (b : Byte) : (s.finishByte b).storage = s.storage := rfl
@[simp] theorem State.finishByte_head (s : State) (b : Byte) : (s.finishByte b).head = s.head := rfl
@[simp] theorem State.finishByte_tail (s : State) (b : Byte) : (s.finishByte b).tail = s.tail := rfl
@[simp] theorem State.finishByte_armed (s : State) (b : Byte) : (s.finishByte b).armed = s.armed := rfl
@[simp] theorem State.finishByte_txfree (s : State) (b : Byte) : (s.finishByte b).txfree = true := rfl
@[simp] theorem State.finishByte_txreg (s : State) (b : Byte) : (s.finishByte b).txreg = s.txreg := rfl
@[simp] theorem State.finishByte_gie (s : State) (b : Byte) : (s.finishByte b).gie = s.gie := rfl
@[simp] theorem State.finishByte_txen (s : State) (b : Byte) : (s.finishByte b).txen = s.txen := rfl
@[simp] theorem State.finishByte_divisor (s : State) (b : Byte) : (s.finishByte b).divisor = s.divisor := rfl
@[simp] theorem State.finishByte_frame (s : State) (b : Byte) : (s.finishByte b).frame = s.frame := rfl
@[simp] theorem State.finishByte_hs (s : State) (b : Byte) : (s.finishByte b).hs = s.hs := rfl
@[simp] theorem State.finishByte_ts (s : State) (b : Byte) : (s.finishByte b).ts = s.ts := rfl
@[simp] theorem State.finishByte_line (s : State) (b : Byte) : (s.finishByte b).line = s.line ++ [b] := rfl
@[simp] theorem State.finishByte_trace (s : State) (b : Byte) : (s.finishByte b).trace = s.trace := rfl
@[simp] theorem State.finishByte_resp (s : State) (b : Byte) : (s.finishByte b).resp = s.resp := rfl
@[simp] theorem State.finishByte_issuer (s : State) (b : Byte) : (s.finishByte b).issuer = s.issuer := rfl
@[simp] theorem State.finishByte_pq (s : State) (b : Byte) : (s.finishByte b).pq = s.pq := rfl
@[simp] theorem State.finishByte_cq (s : State) (b : Byte) : (s.finishByte b).cq = s.cq := rfl
@[simp] theorem State.finishByte_sched (s : State) (b : Byte) : (s.finishByte b).sched = s.sched := rfl
@[simp] theorem State.finishByte_tick (s : State) (b : Byte) : (s.finishByte b).tick = s.tick := rfl

@[simp] theorem State.setHs_cfg (s : State) (l : List (Option Nat)) : (s.setHs l).cfg = s.cfg := rfl
@[simp] theorem State.setHs_storage (s : State) (l : List (Option Nat)) : (s.setHs l).storage = s.storage := rfl
@[simp] theorem State.setHs_head (s : State) (l : List (Option Nat)) : (s.setHs l).head = s.head := rfl
@[simp] theorem State.setHs_tail (s : State) (l : List (Option Nat)) : (s.setHs l).tail = s.tail := rfl
@[simp] theorem State.setHs_armed (s : State) (l : List (Option Nat)) : (s.setHs l).armed = s.armed := rfl
@[simp] theorem State.setHs_txfree (s : State) (l : List (Option Nat)) : (s.setHs l).txfree = s.txfree := rfl
@[simp] theorem State.setHs_txreg (s : State) (l : List (Option Nat)) : (s.setHs l).txreg = s.txreg := rfl
@[simp] theorem State.setHs_gie (s : State) (l : List (Option Nat)) : (s.setHs l).gie = s.gie := rfl
@[simp] theorem State.setHs_txen (s : State) (l : List (Option Nat)) : (s.setHs l).txen = s.txen := rfl
@[simp] theorem State.setHs_divisor (s : State) (l : List (Option Nat)) : (s.setHs l).divisor = s.divisor := rfl
@[simp] theorem State.setHs_frame (s : State) (l : List (Option Nat)) : (s.setHs l).frame = s.frame := rfl
@[simp] theorem State.setHs_hs (s : State) (l : List (Option Nat)) : (s.setHs l).hs = l := rfl
@[simp] theorem State.setHs_ts (s : State) (l : List (Option Nat)) : (s.setHs l).ts = s.ts := rfl
@[simp] theorem State.setHs_line (s : State) (l : List (Option Nat)) : (s.setHs l).line = s.line := rfl
@[simp] theorem State.setHs_trace (s : State) (l : List (Option Nat)) : (s.setHs l).trace = s.trace := rfl
@[simp] theorem State.setHs_resp (s : State) (l : List (Option Nat)) : (s.setHs l).resp = s.resp := rfl
@[simp] theorem State.setHs_issuer (s : State) (l : List (Option Nat)) : (s.setHs l).issuer = s.issuer := rfl
@[simp] theorem State.setHs_pq (s : State) (l : List (Option Nat)) : (s.setHs l).pq = s.pq := rfl
@[simp] theorem State.setHs_cq (s : State) (l : List (Option Nat)) : (s.setHs l).cq = s.cq := rfl
@[simp] theorem State.setHs_sched (s : State) (l : List (Option Nat)) : (s.setHs l).sched = s.sched := rfl
@[simp] theorem State.setHs_tick (s : State) (l : List (Option Nat)) : (s.setHs l).tick = s.tick := rfl

@[simp] theorem State.setTs_cfg (s : State) (l : List (Option Nat)) : (s.setTs l).cfg = s.cfg := rfl
@[simp] theorem State.setTs_storage (s : State) (l : List (Option Nat)) : (s.setTs l).storage = s.storage := rfl
@[simp] theorem State.setTs_head (s : State) (l : List (Option Nat)) : (s.setTs l).head = s.head := rfl
@[simp] theorem State.setTs_tail (s : State) (l : List (Option Nat)) : (s.setTs l).tail = s.tail := rfl
@[simp] theorem State.setTs_armed (s : State) (l : List (Option Nat)) : (s.setTs l).armed = s.armed := rfl
@[simp] theorem State.setTs_txfree (s : State) (l : List (Option Nat)) : (s.setTs l).txfree = s.txfree := rfl
@[simp] theorem State.setTs_txreg (s : State) (l : List (Option Nat)) : (s.setTs l).txreg = s.txreg := rfl
@[simp] theorem State.setTs_gie (s : State) (l : List (Option Nat)) : (s.setTs l).gie = s.gie := rfl
@[simp] theorem State.setTs_txen (s : State) (l : List (Option Nat)) : (s.setTs l).txen = s.txen := rfl
@[simp] theorem State.setTs_divisor (s : State) (l : List (Option Nat)) : (s.setTs l).divisor = s.divisor := rfl
@[simp] theorem State.setTs_frame (s : State) (l : List (Option Nat)) : (s.setTs l).frame = s.frame := rfl
@[simp] theorem State.setTs_hs (s : State) (l : List (Option Nat)) : (s.setTs l).hs = s.hs := rfl
@[simp] theorem State.setTs_ts (s : State) (l : List (Option Nat)) : (s.setTs l).ts = l := rfl
@[simp] theorem State.setTs_line (s : State) (l : List (Option Nat)) : (s.setTs l).line = s.line := rfl
@[simp] theorem State.setTs_trace (s : State) (l : List (Option Nat)) : (s.setTs l).trace = s.trace := rfl
@[simp] theorem State.setTs_resp (s : State) (l : List (Option Nat)) : (s.setTs l).resp = s.resp := rfl
@[simp] theorem State.setTs_issuer (s : State) (l : List (Option Nat)) : (s.setTs l).issuer = s.issuer := rfl
@[simp] theorem State.setTs_pq (s : State) (l : List (Option Nat)) : (s.setTs l).pq = s.pq := rfl
@[simp] theorem State.setTs_cq (s : State) (l : List (Option Nat)) : (s.setTs l).cq = s.cq := rfl
@[simp] theorem State.setTs_sched (s : State) (l : List (Option Nat)) : (s.setTs l).sched = s.sched := rfl
@[simp] theorem State.setTs_tick (s : State) (l : List (Option Nat)) : (s.setTs l).tick = s.tick := rfl

@[simp] theorem State.logEvent_cfg (s : State) (e : Event) : (s.logEvent e).cfg = s.cfg := rfl
@[simp] theorem State.logEvent_storage (s : State) (e : Event) : (s.logEvent e).storage = s.storage := rfl
@[simp] theorem State.logEvent_head (s : State) (e : Event) : (s.logEvent e).head = s.head := rfl
@[simp] theorem State.logEvent_tail (s : State) (e : Event) : (s.logEvent e).tail = s.tail := rfl
@[simp] theorem State.logEvent_armed (s : State) (e : Event) : (s.logEvent e).armed = s.armed := rfl
@[simp] theorem State.logEvent_txfree (s : State) (e : Event) : (s.logEvent e).txfree = s.txfree := rfl
@[simp] theorem State.logEvent_txreg (s : State) (e : Event) : (s.logEvent e).txreg = s.txreg := rfl
@[simp] theorem State.logEvent_gie (s : State) (e : Event) : (s.logEvent e).gie = s.gie := rfl
@[simp] theorem State.logEvent_txen (s : State) (e : Event) : (s.logEvent e).txen = s.txen := rfl
@[simp] theorem State.logEvent_divisor (s : State) (e : Event) : (s.logEvent e).divisor = s.divisor := rfl
@[simp] theorem State.logEvent_frame (s : State) (e : Event) : (s.logEvent e).frame = s.frame := rfl
@[simp] theorem State.logEvent_hs (s : State) (e : Event) : (s.logEvent e).hs = s.hs := rfl
@[simp] theorem State.logEvent_ts (s : State) (e : Event) : (s.logEvent e).ts = s.ts := rfl
@[simp] theorem State.logEvent_line (s : State) (e : Event) : (s.logEvent e).line = s.line := rfl
@[simp] theorem State.logEvent_trace (s : State) (e : Event) : (s.logEvent e).trace = s.trace ++ [e] := rfl
@[simp] theorem State.logEvent_resp (s : State) (e : Event) : (s.logEvent e).resp = s.resp := rfl
@[simp] theorem State.logEvent_issuer (s : State) (e : Event) : (s.logEvent e).issuer = s.issuer := rfl
@[simp] theorem State.logEvent_pq (s : State) (e : Event) : (s.logEvent e).pq = s.pq := rfl
@[simp] theorem State.logEvent_cq (s : State) (e : Event) : (s.logEvent e).cq = s.cq := rfl
@[simp] theorem State.logEvent_sched (s : State) (e : Event) : (s.logEvent e).sched = s.sched := rfl
@[simp] theorem State.logEvent_tick (s : State) (e : Event) : (s.logEvent e).tick = s.tick := rfl

@[simp] theorem State.respond_cfg (s : State) (r : RespWord) : (s.respond r).cfg = s.cfg := rfl
@[simp] theorem State.respond_storage (s : State) (r : RespWord) : (s.respond r).storage = s.storage := rfl
@[simp] theorem State.respond_head (s : State) (r : RespWord) : (s.respond r).head = s.head := rfl
@[simp] theorem State.respond_tail (s : State) (r : RespWord) : (s.respond r).tail = s.tail := rfl
@[simp] theorem State.respond_armed (s : State) (r : RespWord) : (s.respond r).armed = s.armed := rfl
@[simp] theorem State.respond_txfree (s : State) (r : RespWord) : (s.respond r).txfree = s.txfree := rfl
@[simp] theorem State.respond_txreg (s : State) (r : RespWord) : (s.respond r).txreg = s.txreg := rfl
@[simp] theorem State.respond_gie (s : State) (r : RespWord) : (s.respond r).gie = s.gie := rfl
@[simp] theorem State.respond_txen (s : State) (r : RespWord) : (s.respond r).txen = s.txen := rfl
@[simp] theorem State.respond_divisor (s : State) (r : RespWord) : (s.respond r).divisor = s.divisor := rfl
@[simp] theorem State.respond_frame (s : State) (r : RespWord) : (s.respond r).frame = s.frame := rfl
@[simp] theorem State.respond_hs (s : State) (r : RespWord) : (s.respond r).hs = s.hs := rfl
@[simp] theorem State.respond_ts (s : State) (r : RespWord) : (s.respond r).ts = s.ts := rfl
@[simp] theorem State.respond_line (s : State) (r : RespWord) : (s.respond r).line = s.line := rfl
@[simp] theorem State.respond_trace (s : State) (r : RespWord) : (s.respond r).trace = s.trace := rfl
@[simp] theorem State.respond_resp (s : State) (r : RespWord) : (s.respond r).resp = some r := rfl
@[simp] theorem State.respond_issuer (s : State) (r : RespWord) : (s.respond r).issuer = s.issuer := rfl
@[simp] theorem State.respond_pq (s : State) (r : RespWord) : (s.respond r).pq = s.pq := rfl
@[simp] theorem State.respond_cq (s : State) (r : RespWord) : (s.respond r).cq = s.cq := rfl
@[simp] theorem State.respond_sched (s : State) (r : RespWord) : (s.respond r).sched = s.sched := rfl
@[simp] theorem State.respond_tick (s : State) (r : RespWord) : (s.respond r).tick = s.tick := rfl

@[simp] theorem State.issueOn_cfg (s : State) (port : Port) : (s.issueOn port).cfg = s.cfg := rfl
@[simp] theorem State.issueOn_storage (s : State) (port : Port) : (s.issueOn port).storage = s.storage := rfl
@[simp] theorem State.issueOn_head (s : State) (port : Port) : (s.issueOn port).head = s.head := rfl
@[simp] theorem State.issueOn_tail (s : State) (port : Port) : (s.issueOn port).tail = s.tail := rfl
@[simp] theorem State.issueOn_armed (s : State) (port : Port) : (s.issueOn port).armed = s.armed := rfl
@[simp] theorem State.issueOn_txfree (s : State) (port : Port) : (s.issueOn port).txfree = s.txfree := rfl
@[simp] theorem State.issueOn_txreg (s : State) (port : Port) : (s.issueOn port).txreg = s.txreg := rfl
@[simp] theorem State.issueOn_gie (s : State) (port : Port) : (s.issueOn port).gie = s.gie := rfl
@[simp] theorem State.issueOn_txen (s : State) (port : Port) : (s.issueOn port).txen = s.txen := rfl
@[simp] theorem State.issueOn_divisor (s : State) (port : Port) : (s.issueOn port).divisor = s.divisor := rfl
@[simp] theorem State.issueOn_frame (s : State) (port : Port) : (s.issueOn port).frame = s.frame := rfl
@[simp] theorem State.issueOn_hs (s : State) (port : Port) : (s.issueOn port).hs = s.hs := rfl
@[simp] theorem State.issueOn_ts (s : State) (port : Port) : (s.issueOn port).ts = s.ts := rfl
@[simp] theorem State.issueOn_line (s : State) (port : Port) : (s.issueOn port).line = s.line := rfl
@[simp] theorem State.issueOn_trace (s : State) (port : Port) : (s.issueOn port).trace = s.trace := rfl
@[simp] theorem State.issueOn_resp (s : State) (port : Port) : (s.issueOn port).resp = s.resp := rfl
@[simp] theorem State.issueOn_issuer (s : State) (port : Port) : (s.issueOn port).issuer = port := rfl
@[simp] theorem State.issueOn_pq (s : State) (port : Port) : (s.issueOn port).pq = s.pq := rfl
@[simp] theorem State.issueOn_cq (s : State) (port : Port) : (s.issueOn port).cq = s.cq := rfl
@[simp] theorem State.issueOn_sched (s : State) (port : Port) : (s.issueOn port).sched = s.sched := rfl
@[simp] theorem State.issueOn_tick (s : State) (port : Port) : (s.issueOn port).tick = s.tick := rfl

@[simp] theorem State.setPq_cfg (s : State) (q : List Request) : (s.setPq q).cfg = s.cfg := rfl
@[simp] theorem State.setPq_storage (s : State) (q : List Request) : (s.setPq q).storage = s.storage := rfl
@[simp] theorem State.setPq_head (s : State) (q : List Request) : (s.setPq q).head = s.head := rfl
@[simp] theorem State.setPq_tail (s : State) (q : List Request) : (s.setPq q).tail = s.tail := rfl
@[simp] theorem State.setPq_armed (s : State) (q : List Request) : (s.setPq q).armed = s.armed := rfl
@[simp] theorem State.setPq_txfree (s : State) (q : List Request) : (s.setPq q).txfree = s.txfree := rfl
@[simp] theorem State.setPq_txreg (s : State) (q : List Request) : (s.setPq q).txreg = s.txreg := rfl
@[simp] theorem State.setPq_gie (s : State) (q : List Request) : (s.setPq q).gie = s.gie := rfl
@[simp] theorem State.setPq_txen (s : State) (q : List Request) : (s.setPq q).txen = s.txen := rfl
@[simp] theorem State.setPq_divisor (s : State) (q : List Request) : (s.setPq q).divisor = s.divisor := rfl
@[simp] theorem State.setPq_frame (s : State) (q : List Request) : (s.setPq q).frame = s.frame := rfl
@[simp] theorem State.setPq_hs (s : State) (q : List Request) : (s.setPq q).hs = s.hs := rfl
@[simp] theorem State.setPq_ts (s : State) (q : List Request) : (s.setPq q).ts = s.ts := rfl
@[simp] theorem State.setPq_line (s : State) (q : List Request) : (s.setPq q).line = s.line := rfl
@[simp] theorem State.setPq_trace (s : State) (q : List Request) : (s.setPq q).trace = s.trace := rfl
@[simp] theorem State.setPq_resp (s : State) (q : List Request) : (s.setPq q).resp = s.resp := rfl
@[simp] theorem State.setPq_issuer (s : State) (q : List Request) : (s.setPq q).issuer = s.issuer := rfl
@[simp] theorem State.setPq_pq (s : State) (q : List Request) : (s.setPq q).pq = q := rfl
@[simp] theorem State.setPq_cq (s : State) (q : List Request) : (s.setPq q).cq = s.cq := rfl
@[simp] theorem State.setPq_sched (s : State) (q : List Request) : (s.setPq q).sched = s.sched := rfl
@[simp] theorem State.setPq_tick (s : State) (q : List Request) : (s.setPq q).tick = s.tick := rfl

@[simp] theorem State.setCq_cfg (s : State) (q : List CmdWord) : (s.setCq q).cfg = s.cfg := rfl
@[simp] theorem State.setCq_storage (s : State) (q : List CmdWord) : (s.setCq q).storage = s.storage := rfl
@[simp] theorem State.setCq_head (s : State) (q : List CmdWord) : (s.setCq q).head = s.head := rfl
@[simp] theorem State.setCq_tail (s : State) (q : List CmdWord) : (s.setCq q).tail = s.tail := rfl
@[simp] theorem State.setCq_armed (s : State) (q : List CmdWord) : (s.setCq q).armed = s.armed := rfl
@[simp] theorem State.setCq_txfree (s : State) (q : List CmdWord) : (s.setCq q).txfree = s.txfree := rfl
@[simp] theorem State.setCq_txreg (s : State) (q : List CmdWord) : (s.setCq q).txreg = s.txreg := rfl
@[simp] theorem State.setCq_gie (s : State) (q : List CmdWord) : (s.setCq q).gie = s.gie := rfl
@[simp] theorem State.setCq_txen (s : State) (q : List CmdWord) : (s.setCq q).txen = s.txen := rfl
@[simp] theorem State.setCq_divisor (s : State) (q : List CmdWord) : (s.setCq q).divisor = s.divisor := rfl
@[simp] theorem State.setCq_frame (s : State) (q : List CmdWord) : (s.setCq q).frame = s.frame := rfl
@[simp] theorem State.setCq_hs (s : State) (q : List CmdWord) : (s.setCq q).hs = s.hs := rfl
@[simp] theorem State.setCq_ts (s : State) (q : List CmdWord) : (s.setCq q).ts = s.ts := rfl
@[simp] theorem State.setCq_line (s : State) (q : List CmdWord) : (s.setCq q).line = s.line := rfl
@[simp] theorem State.setCq_trace (s : State) (q : List CmdWord) : (s.setCq q).trace = s.trace := rfl
@[simp] theorem State.setCq_resp (s : State) (q : List CmdWord) : (s.setCq q).resp = s.resp := rfl
@[simp] theorem State.setCq_issuer (s : State) (q : List CmdWord) : (s.setCq q).issuer = s.issuer := rfl
@[simp] theorem State.setCq_pq (s : State) (q : List CmdWord) : (s.setCq q).pq = s.pq := rfl
@[simp] theorem State.setCq_cq (s : State) (q : List CmdWord) : (s.setCq q).cq = q := rfl
@[simp] theorem State.setCq_sched (s : State) (q : List CmdWord) : (s.setCq q).sched = s.sched := rfl
@[simp] theorem State.setCq_tick (s : State) (q : List CmdWord) : (s.setCq q).tick = s.tick := rfl

@[simp] theorem State.setSched_cfg (s : State) (l : List Turn) (n : Nat) : (s.setSched l n).cfg = s.cfg := rfl
@[simp] theorem State.setSched_storage (s : State) (l : List Turn) (n : Nat) : (s.setSched l n).storage = s.storage := rfl
@[simp] theorem State.setSched_head (s : State) (l : List Turn) (n : Nat) : (s.setSched l n).head = s.head := rfl
@[simp] theorem State.setSched_tail (s : State) (l : List Turn) (n : Nat) : (s.setSched l n).tail = s.tail := rfl
@[simp] theorem State.setSched_armed (s : State) (l : List Turn) (n : Nat) : (s.setSched l n).armed = s.armed := rfl
@[simp] theorem State.setSched_txfree (s : State) (l : List Turn) (n : Nat) : (s.setSched l n).txfree = s.txfree := rfl
@[simp] theorem State.setSched_txreg (s : State) (l : List Turn) (n : Nat) : (s.setSched l n).txreg = s.txreg := rfl
@[simp] theorem State.setSched_gie (s : State) (l : List Turn) (n : Nat) : (s.setSched l n).gie = s.gie := rfl
@[simp] theorem State.setSched_txen (s : State) (l : List Turn) (n : Nat) : (s.setSched l n).txen = s.txen := rfl
@[simp] theorem State.setSched_divisor (s : State) (l : List Turn) (n : Nat) : (s.setSched l n).divisor = s.divisor := rfl
@[simp] theorem State.setSched_frame (s : State) (l : List Turn) (n : Nat) : (s.setSched l n).frame = s.frame := rfl
@[simp] theorem State.setSched_hs (s : State) (l : List Turn) (n : Nat) : (s.setSched l n).hs = s.hs := rfl
@[simp] theorem State.setSched_ts (s : State) (l : List Turn) (n : Nat) : (s.setSched l n).ts = s.ts := rfl
@[simp] theorem State.setSched_line (s : State) (l : List Turn) (n : Nat) : (s.setSched l n).line = s.line := rfl
@[simp] theorem State.setSched_trace (s : State) (l : List Turn) (n : Nat) : (s.setSched l n).trace = s.trace := rfl
@[simp] theorem State.setSched_resp (s : State) (l : List Turn) (n : Nat) : (s.setSched l n).resp = s.resp := rfl
@[simp] theorem State.setSched_issuer (s : State) (l : List Turn) (n : Nat) : (s.setSched l n).issuer = s.issuer := rfl
@[simp] theorem State.setSched_pq (s : State) (l : List Turn) (n : Nat) : (s.setSched l n).pq = s.pq := rfl
@[simp] theorem State.setSched_cq (s : State) (l : List Turn) (n : Nat) : (s.setSched l n).cq = s.cq := rfl
@[simp] theorem State.setSched_sched (s : State) (l : List Turn) (n : Nat) : (s.setSched l n).sched = l := rfl
@[simp] theorem State.setSched_tick (s : State) (l : List Turn) (n : Nat) : (s.setSched l n).tick = n := rfl

@[simp] theorem State.arm_cfg (s : State) : s.arm.cfg = s.cfg := rfl
@[simp] theorem State.arm_storage (s : State) : s.arm.storage = s.storage := rfl
@[simp] theorem State.arm_head (s : State) : s.arm.head = s.head := rfl
@[simp] theorem State.arm_tail (s : State) : s.arm.tail = s.tail := rfl
@[simp] theorem State.arm_armed (s : State) : s.arm.armed = true := rfl
@[simp] theorem State.arm_txfree (s : State) : s.arm.txfree = s.txfree := rfl
@[simp] theorem State.arm_txreg (s : State) : s.arm.txreg = s.txreg := rfl
@[simp] theorem State.arm_gie (s : State) : s.arm.gie = s.gie := rfl
@[simp] theorem State.arm_txen (s : State) : s.arm.txen = s.txen := rfl
@[simp] theorem State.arm_divisor (s : State) : s.arm.divisor = s.divisor := rfl
@[simp] theorem State.arm_frame (s : State) : s.arm.frame = s.frame := rfl
@[simp] theorem State.arm_hs (s : State) : s.arm.hs = s.hs := rfl
@[simp] theorem State.arm_ts (s : State) : s.arm.ts = s.ts := rfl
@[simp] theorem State.arm_line (s : State) : s.arm.line = s.line := rfl
@[simp] theorem State.arm_trace (s : State) : s.arm.trace = s.trace ++ [.arm] := rfl
@[simp] theorem State.arm_resp (s : State) : s.arm.resp = s.resp := rfl
@[simp] theorem State.arm_issuer (s : State) : s.arm.issuer = s.issuer := rfl
@[simp] theorem State.arm_pq (s : State) : s.arm.pq = s.pq := rfl
@[simp] theorem State.arm_cq (s : State) : s.arm.cq = s.cq := rfl
@[simp] theorem State.arm_sched (s : State) : s.arm.sched = s.sched := rfl
@[simp] theorem State.arm_tick (s : State) : s.arm.tick = s.tick := rfl

@[simp] theorem State.disarm_cfg (s : State) : s.disarm.cfg = s.cfg := rfl
@[simp] theorem State.disarm_storage (s : State) : s.disarm.storage = s.storage := rfl
@[simp] theorem State.disarm_head (s : State) : s.disarm.head = s.head := rfl
@[simp] theorem State.disarm_tail (s : State) : s.disarm.tail = s.tail := rfl
@[simp] theorem State.disarm_armed (s : State) : s.disarm.armed = false := rfl
@[simp] theorem State.disarm_txfree (s : State) : s.disarm.txfree = s.txfree := rfl
@[simp] theorem State.disarm_txreg (s : State) : s.disarm.txreg = s.txreg := rfl
@[simp] theorem State.disarm_gie (s : State) : s.disarm.gie = s.gie := rfl
@[simp] theorem State.disarm_txen (s : State) : s.disarm.txen = s.txen := rfl
@[simp] theorem State.disarm_divisor (s : State) : s.disarm.divisor = s.divisor := rfl
@[simp] theorem State.disarm_frame (s : State) : s.disarm.frame = s.frame := rfl
@[simp] theorem State.disarm_hs (s : State) : s.disarm.hs = s.hs := rfl
@[simp] theorem State.disarm_ts (s : State) : s.disarm.ts = s.ts := rfl
@[simp] theorem State.disarm_line (s : State) : s.disarm.line = s.line := rfl
@[simp] theorem State.disarm_trace (s : State) : s.disarm.trace = s.trace ++ [.disarm] := rfl
@[simp] theorem State.disarm_resp (s : State) : s.disarm.resp = s.resp := rfl
@[simp] theorem State.disarm_issuer (s : State) : s.disarm.issuer = s.issuer := rfl
@[simp] theorem State.disarm_pq (s : State) : s.disarm.pq = s.pq := rfl
@[simp] theorem State.disarm_cq (s : State) : s.disarm.cq = s.cq := rfl
@[simp] theorem State.disarm_sched (s : State) : s.disarm.sched = s.sched := rfl
@[simp] theorem State.disarm_tick (s : State) : s.disarm.tick = s.tick := rfl

@[simp] theorem State.enterHandler_cfg (s : State) : s.enterHandler.cfg = s.cfg := rfl
@[simp] theorem State.enterHandler_storage (s : State) : s.enterHandler.storage = s.storage := rfl
@[simp] theorem State.enterHandler_head (s : State) : s.enterHandler.head = s.head := rfl
@[simp] theorem State.enterHandler_tail (s : State) : s.enterHandler.tail = s.tail := rfl
@[simp] theorem State.enterHandler_armed (s : State) : s.enterHandler.armed = s.armed := rfl
@[simp] theorem State.enterHandler_txfree (s : State) : s.enterHandler.txfree = s.txfree := rfl
@[simp] theorem State.enterHandler_txreg (s : State) : s.enterHandler.txreg = s.txreg := rfl
@[simp] theorem State.enterHandler_gie (s : State) : s.enterHandler.gie = s.gie := rfl
@[simp] theorem State.enterHandler_txen (s : State) : s.enterHandler.txen = s.txen := rfl
@[simp] theorem State.enterHandler_divisor (s : State) : s.enterHandler.divisor = s.divisor := rfl
@[simp] theorem State.enterHandler_frame (s : State) : s.enterHandler.frame = s.frame := rfl
@[simp] theorem State.enterHandler_hs (s : State) : s.enterHandler.hs = s.hs := rfl
@[simp] theorem State.enterHandler_ts (s : State) : s.enterHandler.ts = s.ts := rfl
@[simp] theorem State.enterHandler_line (s : State) : s.enterHandler.line = s.line := rfl
@[simp] theorem State.enterHandler_trace (s : State) : s.enterHandler.trace = s.trace := rfl
@[simp] theorem State.enterHandler_resp (s : State) : s.enterHandler.resp = s.resp := rfl
@[simp] theorem State.enterHandler_issuer (s : State) : s.enterHandler.issuer = .c := rfl
@[simp] theorem State.enterHandler_pq (s : State) : s.enterHandler.pq = s.pq := rfl
@[simp] theorem State.enterHandler_cq (s : State) : s.enterHandler.cq = s.cq := rfl
@[simp] theorem State.enterHandler_sched (s : State) : s.enterHandler.sched = s.sched := rfl
@[simp] theorem State.enterHandler_tick (s : State) : s.enterHandler.tick = s.tick := rfl

end Sys2Proof.Machine
end

