-- ==== Sys2Proof/Laws/Ops.lean ====
section
/-! SUPPORT. One lemma per shared operation that says everything it can do, for later proofs to cite
instead of unfolding it. -/

namespace Sys2Proof.Machine

/-- A view reads its own cursor exactly, and the other one exactly or through its synchroniser. -/
theorem State.view_ok {s : State} {port : Port} {h t : Nat} (hv : s.view port = .ok (h, t)) :
    ∃ h₀ t₀, s.head = some h₀ ∧ s.tail = some t₀ ∧
      ((s.cfg.S = 0 ∧ h = h₀ ∧ t = t₀) ∨
        (s.cfg.S ≠ 0 ∧ port = .p ∧ h = h₀ ∧ seenThrough s.cfg.C s.ts = .ok t) ∨
        (s.cfg.S ≠ 0 ∧ port = .c ∧ t = t₀ ∧ seenThrough s.cfg.C s.hs = .ok h)) := by
  unfold State.view at hv
  split at hv
  case h_2 => cases hv
  case h_1 h₀ t₀ hh ht =>
    refine ⟨h₀, t₀, hh, ht, ?_⟩
    split at hv
    case isTrue hS =>
      injection hv with hv; injection hv with h1 h2
      exact .inl ⟨hS, h1.symm, h2.symm⟩
    case isFalse hS =>
      cases port
      · dsimp only at hv
        split at hv
        · rename_i hseen
          injection hv with hv; injection hv with h1 h2
          subst h1 h2
          exact .inr (.inl ⟨hS, rfl, rfl, hseen⟩)
        · cases hv
      · dsimp only at hv
        split at hv
        · rename_i hseen
          injection hv with hv; injection hv with h1 h2
          subst h1 h2
          exact .inr (.inr ⟨hS, rfl, rfl, hseen⟩)
        · cases hv

/-- The producer view reads `head` exactly. -/
theorem State.view_p_head {s : State} {h t : Nat} (hv : s.view .p = .ok (h, t)) : s.head = some h := by
  obtain ⟨h₀, t₀, hh, -, ⟨-, rfl, -⟩ | ⟨-, -, rfl, -⟩ | ⟨-, hp, -, -⟩⟩ := State.view_ok hv
  · exact hh
  · exact hh
  · cases hp

/-- The consumer view reads `tail` exactly. -/
theorem State.view_c_tail {s : State} {h t : Nat} (hv : s.view .c = .ok (h, t)) : s.tail = some t := by
  obtain ⟨h₀, t₀, -, ht, ⟨-, -, rfl⟩ | ⟨-, hp, -, -⟩ | ⟨-, -, rfl, -⟩⟩ := State.view_ok hv
  · exact ht
  · cases hp
  · exact ht

/-- Without synchronisers a view is the cursors. -/
theorem State.view_exact {s : State} {h t : Nat} (hh : s.head = some h) (ht : s.tail = some t)
    (hS : s.cfg.S = 0) (port : Port) : s.view port = .ok (h, t) := by
  simp [State.view, hh, ht, hS]

/-- A view depends on the cursors, the synchronisers and the instance only. -/
theorem State.view_congr {s s' : State} (hc : s'.cfg = s.cfg) (hh : s'.head = s.head)
    (ht : s'.tail = s.tail) (hhs : s'.hs = s.hs) (hts : s'.ts = s.ts) (port : Port) :
    s'.view port = s.view port := by
  simp only [State.view, hc, hh, ht, hhs, hts]

/-- What `onPort` lets through: an admitted instance, an accepted port, and then the rule. -/
theorem State.onPort_next {s s' : State} {i : Instr} {rule : Result}
    (h : s.onPort i rule = .next s') :
    validInstance s.cfg = true ∧ accepts i s.issuer = true ∧ rule = .next s' := by
  unfold State.onPort at h
  split at h
  · split at h
    · exact ⟨‹_›, ‹_›, h⟩
    · cases h
  · cases h

/-- `onPort` adds no fault. -/
theorem State.onPort_fault {s : State} {i : Instr} {rule : Result} {f : Fault}
    (h : s.onPort i rule = .fault f) :
    validInstance s.cfg = true ∧ accepts i s.issuer = true ∧ rule = .fault f := by
  unfold State.onPort at h
  split at h
  · split at h
    · exact ⟨‹_›, ‹_›, h⟩
    · cases h
  · cases h

theorem State.onPort_eq {s : State} {i : Instr} {rule : Result} (hc : validInstance s.cfg = true)
    (ha : accepts i s.issuer = true) : s.onPort i rule = rule := by
  simp [State.onPort, hc, ha]

/-- What `withView` lets through: the view of the issuing side, and then the rule. -/
theorem State.withView_next {s s' : State} {rule : Nat → Nat → Result}
    (h : s.withView rule = .next s') :
    ∃ a b, s.view s.issuer = .ok (a, b) ∧ rule a b = .next s' := by
  unfold State.withView at h
  split at h
  · exact ⟨_, _, ‹_›, h⟩
  · cases h

theorem State.withView_eq {s : State} {rule : Nat → Nat → Result} {h t : Nat}
    (hv : s.view s.issuer = .ok (h, t)) : s.withView rule = rule h t := by
  simp [State.withView, hv]

/-- `ringPut` drops in a full view, stores at `head` in another, and faults only outside the slots. -/
theorem State.ringPut_cases (s : State) (h t : Nat) (b : Byte) :
    (fullFlag s.cfg.C h t = true ∧ s.ringPut h t b = .ok (s.logEvent (.drop b), false)) ∨
    (fullFlag s.cfg.C h t = false ∧ h < s.cfg.C ∧
      s.ringPut h t b = .ok
        (((s.setStorage (Memory.write s.storage h b)).setHead (inc s.cfg.C h)).logEvent (.put b), true)) ∨
    (fullFlag s.cfg.C h t = false ∧ ¬ h < s.cfg.C ∧ s.ringPut h t b = .error .noSlot) := by
  unfold State.ringPut State.storeAtHead
  by_cases hf : fullFlag s.cfg.C h t = true
  · simp [hf]
  · by_cases hh : h < s.cfg.C
    · simp [hf, hh]
    · simp [hf, hh]

/-- `ringGet` takes nothing in an empty view, the byte at `tail` in another, and faults only outside the
slots or on a slot with no value. -/
theorem State.ringGet_cases (s : State) (h t : Nat) :
    (h = t ∧ s.ringGet h t = .ok (s, none)) ∨
    (h ≠ t ∧ t < s.cfg.C ∧ ∃ b, Memory.read s.storage t = some b ∧
      s.ringGet h t = .ok ((s.setTail (inc s.cfg.C t)).logEvent (.get b), some b)) ∨
    (h ≠ t ∧ ∃ f, s.ringGet h t = .error f ∧ (¬ t < s.cfg.C ∨ Memory.read s.storage t = none)) := by
  unfold State.ringGet State.loadAtTail emptyFlag
  by_cases he : h = t
  · simp [he]
  · by_cases ht : t < s.cfg.C
    · cases hr : Memory.read s.storage t with
      | none => simp [he, ht]
      | some b => simp [he, ht]
    · simp [he, ht]

/-- What the commands can answer when they go on: one case per way, with the state they leave. -/
theorem exec_init_next {s s' : State} (h : exec .init s = .next s') :
    s.issuer = .p ∧ s' = s.ringInit.respond (respWord false 0) := by
  obtain ⟨-, ha, h⟩ := State.onPort_next h
  injection h with h
  exact ⟨by simpa [accepts] using ha, h.symm⟩

theorem exec_begin_next {s s' : State} {n : Int} (h : exec (.begin n) s = .next s') :
    s.issuer = .p ∧ 0 < n ∧
      s' = (((s.configure (bitRateDivisor s.cfg.fClk n) .eightN1).enableTransmitter).ringInit).respond
        (respWord false 0) := by
  obtain ⟨-, ha, h⟩ := State.onPort_next h
  split at h
  · cases h
  · injection h with h
    exact ⟨by simpa [accepts] using ha, by omega, h.symm⟩

theorem exec_isEmpty_next {s s' : State} (h : exec .isEmpty s = .next s') :
    ∃ r, s' = s.respond r := by
  obtain ⟨-, -, h⟩ := State.onPort_next h
  obtain ⟨a, b, -, h⟩ := State.withView_next h
  injection h with h
  exact ⟨_, h.symm⟩

theorem exec_isFull_next {s s' : State} (h : exec .isFull s = .next s') :
    ∃ r, s' = s.respond r := by
  obtain ⟨-, -, h⟩ := State.onPort_next h
  obtain ⟨a, b, -, h⟩ := State.withView_next h
  injection h with h
  exact ⟨_, h.symm⟩

theorem exec_put_next {s s' : State} {b : Byte} (hx : exec (.put b) s = .next s') :
    s.issuer = .p ∧ ∃ h t, s.view .p = .ok (h, t) ∧
      ((inc s.cfg.C h = t ∧ s' = (s.logEvent (.drop b)).respond (respWord false 0)) ∨
        (inc s.cfg.C h ≠ t ∧ h < s.cfg.C ∧
          s' = (((s.setStorage (Memory.write s.storage h b)).setHead (inc s.cfg.C h)).logEvent
            (.put b)).respond (respWord true 0))) := by
  obtain ⟨-, ha, hx⟩ := State.onPort_next hx
  obtain ⟨h, t, hv, hx⟩ := State.withView_next hx
  have hp : s.issuer = .p := by simpa [accepts] using ha
  rw [hp] at hv
  refine ⟨hp, h, t, hv, ?_⟩
  rcases State.ringPut_cases s h t b with ⟨hf, hr⟩ | ⟨hf, hh, hr⟩ | ⟨-, -, hr⟩ <;> rw [hr] at hx
  · injection hx with hx
    exact .inl ⟨by simpa [fullFlag] using hf, hx.symm⟩
  · injection hx with hx
    exact .inr ⟨by simpa [fullFlag] using hf, hh, hx.symm⟩
  · cases hx

theorem exec_emit_next {s s' : State} {b : Byte} (hx : exec (.emit b) s = .next s') :
    s.issuer = .p ∧ ∃ h t u, s.view .p = .ok (h, t) ∧
      ((inc s.cfg.C h = t ∧ u = (s.setGie false).logEvent (.drop b)) ∨
        (inc s.cfg.C h ≠ t ∧ h < s.cfg.C ∧
          u = ((((s.setGie false).setStorage (Memory.write s.storage h b)).setHead
            (inc s.cfg.C h)).logEvent (.put b)))) ∧
      s' = ((if s.cfg.S = 0 ∧ h = t then u.arm else u).setGie s.gie).respond
        (respWord (decide (inc s.cfg.C h ≠ t)) 0) := by
  obtain ⟨-, ha, hx⟩ := State.onPort_next hx
  obtain ⟨h, t, hv, hx⟩ := State.withView_next hx
  have hp : s.issuer = .p := by simpa [accepts] using ha
  rw [hp] at hv
  refine ⟨hp, h, t, ?_⟩
  rcases State.ringPut_cases (s.setGie false) h t b with ⟨hf, hr⟩ | ⟨hf, hh, hr⟩ | ⟨-, -, hr⟩ <;>
    rw [hr] at hx
  · injection hx with hx
    have hf' : inc s.cfg.C h = t := by simpa [fullFlag] using hf
    refine ⟨_, hv, .inl ⟨hf', rfl⟩, ?_⟩
    rw [← hx]
    simp [hf', emptyFlag]
  · injection hx with hx
    have hf' : inc s.cfg.C h ≠ t := by simpa [fullFlag] using hf
    refine ⟨_, hv, .inr ⟨hf', hh, rfl⟩, ?_⟩
    rw [← hx]
    simp [hf', emptyFlag]
  · cases hx

theorem exec_get_next {s s' : State} (hx : exec .get s = .next s') :
    s.issuer = .c ∧ ∃ h t, s.view .c = .ok (h, t) ∧
      ((h = t ∧ s' = s.respond (respWord false 0)) ∨
        (h ≠ t ∧ t < s.cfg.C ∧ ∃ b, Memory.read s.storage t = some b ∧
          s' = ((s.setTail (inc s.cfg.C t)).logEvent (.get b)).respond (respWord true b))) := by
  obtain ⟨-, ha, hx⟩ := State.onPort_next hx
  obtain ⟨h, t, hv, hx⟩ := State.withView_next hx
  have hp : s.issuer = .c := by simpa [accepts] using ha
  rw [hp] at hv
  refine ⟨hp, h, t, hv, ?_⟩
  rcases State.ringGet_cases s h t with ⟨he, hr⟩ | ⟨he, ht, b, hb, hr⟩ | ⟨-, f, hr, -⟩ <;> rw [hr] at hx
  · injection hx with hx
    exact .inl ⟨he, hx.symm⟩
  · injection hx with hx
    exact .inr ⟨he, ht, b, hb, hx.symm⟩
  · cases hx

theorem exec_drain_next {s s' : State} (hx : exec .drain s = .next s') :
    s.issuer = .c ∧
      ((s.drainEnabled = false ∧ s' = s) ∨
        (s.drainEnabled = true ∧ ∃ h t, s.view .c = .ok (h, t) ∧
          ((h = t ∧ s' = s.disarm.respond (respWord false 0)) ∨
            (h ≠ t ∧ t < s.cfg.C ∧ ∃ b, Memory.read s.storage t = some b ∧
              s' = ((((s.setTail (inc s.cfg.C t)).logEvent (.get b)).logEvent
                (.txWrite b)).writeOutputRegister b).respond (respWord true b))))) := by
  obtain ⟨-, ha, hx⟩ := State.onPort_next hx
  have hp : s.issuer = .c := by simpa [accepts] using ha
  refine ⟨hp, ?_⟩
  split at hx
  · rename_i hen
    obtain ⟨h, t, hv, hx⟩ := State.withView_next hx
    rw [hp] at hv
    refine .inr ⟨hen, h, t, hv, ?_⟩
    rcases State.ringGet_cases s h t with ⟨he, hr⟩ | ⟨he, ht, b, hb, hr⟩ | ⟨-, f, hr, -⟩ <;>
      rw [hr] at hx
    · injection hx with hx
      exact .inl ⟨he, hx.symm⟩
    · injection hx with hx
      exact .inr ⟨he, ht, b, hb, hx.symm⟩
    · cases hx
  · rename_i hen
    injection hx with hx
    exact .inl ⟨by simpa using hen, hx.symm⟩

end Sys2Proof.Machine
end

