-- ==== Sys2Proof/Laws/PerInstr.lean ====
section
/-! SUPPORT. Per command: its word selects the row of the opcode map that carries its own mnemonic
(spec/30_encoding.md R76). -/

namespace Sys2Proof.Laws.Encoding

/-- The word of the command selects its own row. -/
def Statement (i : Instr) : Prop :=
  ∃ r, r ∈ opcodeTable ∧ r.mnemonic = i.mnemonic ∧ r.selects (encode i) = true

theorem init : Statement .init :=
  ⟨⟨"INIT", 0xFFFFFFFFFF#40, 0x0100000000#40⟩, by simp [opcodeTable], rfl, by decide⟩

theorem isEmpty : Statement .isEmpty :=
  ⟨⟨"IS_EMPTY", 0xFFFFFFFFFF#40, 0x0200000000#40⟩, by simp [opcodeTable], rfl, by decide⟩

theorem isFull : Statement .isFull :=
  ⟨⟨"IS_FULL", 0xFFFFFFFFFF#40, 0x0300000000#40⟩, by simp [opcodeTable], rfl, by decide⟩

theorem put (data : Byte) : Statement (.put data) :=
  ⟨⟨"PUT", 0xFFFFFFFF00#40, 0x0400000000#40⟩, by simp [opcodeTable], rfl, by
    revert data; decide⟩

theorem get : Statement .get :=
  ⟨⟨"GET", 0xFFFFFFFFFF#40, 0x0500000000#40⟩, by simp [opcodeTable], rfl, by decide⟩

theorem begin (baud : Int) : Statement (.begin baud) :=
  ⟨⟨"BEGIN", 0xFF00000000#40, 0x0600000000#40⟩, by simp [opcodeTable], rfl, by
    have key : ∀ x : BitVec 32,
        ((0x06#8 ++ x) &&& (0xFF#8 ++ 0#32) : BitVec (8 + 32)) = 0x06#8 ++ 0#32 := by
      intro x
      rw [BitVec.and_append, BitVec.and_zero]
      rfl
    exact beq_iff_eq.mpr (key _)⟩

theorem emit (data : Byte) : Statement (.emit data) :=
  ⟨⟨"EMIT", 0xFFFFFFFF00#40, 0x0700000000#40⟩, by simp [opcodeTable], rfl, by
    revert data; decide⟩

theorem drain : Statement .drain :=
  ⟨⟨"DRAIN", 0xFFFFFFFFFF#40, 0x0800000000#40⟩, by simp [opcodeTable], rfl, by decide⟩

end Sys2Proof.Laws.Encoding
end

