-- ==== Sys2Proof/Laws/Ring.lean ====
section
/-! SUPPORT. Ring arithmetic on cursor values below `C`: `inc` as compare and wrap
(spec/40_ringbuffer_ops.md R99 a) and how `dist` moves with its ends. -/

namespace Sys2Proof.Machine

theorem inc_lt {C i : Nat} (hi : i < C) : inc C i < C := Nat.mod_lt _ (by omega)

/-- `inc` is a compare and wrap (R99 a). -/
theorem inc_eq {C i : Nat} (hi : i < C) : inc C i = if i + 1 = C then 0 else i + 1 := by
  unfold inc
  split
  · rename_i h
    rw [h, Nat.mod_self]
  · exact Nat.mod_eq_of_lt (by omega)

/-- `dist` without the remainder. -/
theorem dist_eq {C a b : Nat} (ha : a < C) (hb : b < C) :
    dist C a b = if a ≤ b then b - a else b + C - a := by
  unfold dist
  split
  · rw [show b + C - a = (b - a) + C by omega, Nat.add_mod_right]
    exact Nat.mod_eq_of_lt (by omega)
  · exact Nat.mod_eq_of_lt (by omega)

theorem dist_lt {C a b : Nat} (hb : b < C) : dist C a b < C := Nat.mod_lt _ (by omega)

@[simp] theorem dist_self (C a : Nat) : dist C a a = 0 := by simp [dist]

theorem dist_eq_zero {C a b : Nat} (ha : a < C) (hb : b < C) : dist C a b = 0 ↔ a = b := by
  rw [dist_eq ha hb]; split <;> omega

/-- Advancing the far end adds one, but on the way once round. -/
theorem dist_inc_right {C a b : Nat} (ha : a < C) (hb : b < C) :
    dist C a (inc C b) = if inc C b = a then 0 else dist C a b + 1 := by
  have := inc_lt hb
  rw [dist_eq ha this, dist_eq ha hb, inc_eq hb]
  split_ifs <;> omega

/-- Advancing the near end takes one off, unless there was nothing between. -/
theorem dist_inc_left {C a b : Nat} (ha : a < C) (hb : b < C) (hab : a ≠ b) :
    dist C (inc C a) b + 1 = dist C a b := by
  have := inc_lt ha
  rw [dist_eq this hb, dist_eq ha hb, inc_eq ha]
  split_ifs <;> omega

/-- The way by a point between is at least as long. -/
theorem dist_triangle {C a b c : Nat} (ha : a < C) (hb : b < C) (hc : c < C) :
    dist C a c ≤ dist C a b + dist C b c := by
  rw [dist_eq ha hb, dist_eq ha hc, dist_eq hb hc]
  split_ifs <;> omega

theorem emptyFlag_iff {h t : Nat} : emptyFlag h t = true ↔ h = t := by simp [emptyFlag]

theorem fullFlag_iff {C h t : Nat} : fullFlag C h t = true ↔ inc C h = t := by simp [fullFlag]

end Sys2Proof.Machine
end

