-- ==== Sys2Proof/Laws/Step.lean ====
section
/-! SUPPORT. What a step can do, once: every next state of a step is a command's, a device step's, a
synchroniser edge's, or differs from the state before in the inputs only. -/

namespace Sys2Proof.Machine

/-- Two states that differ at most in the inputs, the schedule and the issuing port. -/
def State.sameBlock (s s' : State) : Prop :=
  s' = { s with pq := s'.pq, cq := s'.cq, sched := s'.sched, tick := s'.tick, issuer := s'.issuer }

theorem State.sameBlock_refl (s : State) : s.sameBlock s := rfl

theorem State.sameBlock_advance (s : State) : s.sameBlock s.advance := by
  unfold State.advance
  split <;> rfl

theorem txDone_next {s s' : State} (h : txDone s = .next s') :
    (s.txfree = true ∧ s' = s) ∨
      (s.txfree = false ∧ ∃ b, s.txreg = some b ∧ s' = s.finishByte b) := by
  unfold txDone at h
  split at h
  · injection h with h
    exact .inl ⟨‹_›, h.symm⟩
  · rename_i hf
    split at h
    · rename_i b hb
      injection h with h
      exact .inr ⟨by simpa using hf, b, hb, h.symm⟩
    · cases h

theorem syncH_next {s s' : State} (h : syncH s = .next s') :
    ((s.cfg.S = 0 ∨ s.head = none ∨ s.tail = none) ∧ s' = s) ∨
      ∃ hd tl old new, s.cfg.S ≠ 0 ∧ s.head = some hd ∧ s.tail = some tl ∧
        seenThrough s.cfg.C s.hs = .ok old ∧
        seenThrough s.cfg.C (shiftIn (enc s.cfg.C hd) s.hs) = .ok new ∧
        s' = if old = tl ∧ new ≠ tl then (s.setHs (shiftIn (enc s.cfg.C hd) s.hs)).arm
          else s.setHs (shiftIn (enc s.cfg.C hd) s.hs) := by
  unfold syncH at h
  split at h
  · rename_i hd tl hh ht
    split at h
    · rename_i hS
      injection h with h
      exact .inl ⟨.inl hS, h.symm⟩
    · rename_i hS
      split at h
      · cases h
      · rename_i old hold
        split at h
        · cases h
        · rename_i new hnew
          injection h with h
          refine .inr ⟨hd, tl, old, new, hS, hh, ht, hold, hnew, ?_⟩
          rw [← h]
          by_cases h1 : old = tl <;> by_cases h2 : new = tl <;> simp [h1, h2]
  · rename_i hno
    injection h with h
    refine .inl ⟨.inr ?_, h.symm⟩
    cases hh : s.head with
    | none => exact .inl rfl
    | some hd =>
      cases ht : s.tail with
      | none => exact .inr rfl
      | some tl => exact absurd ht (hno hd tl hh)

theorem syncT_next {s s' : State} (h : syncT s = .next s') :
    ((s.cfg.S = 0 ∨ s.head = none ∨ s.tail = none) ∧ s' = s) ∨
      ∃ hd tl, s.cfg.S ≠ 0 ∧ s.head = some hd ∧ s.tail = some tl ∧
        s' = s.setTs (shiftIn (enc s.cfg.C tl) s.ts) := by
  unfold syncT at h
  split at h
  · rename_i hd tl hh ht
    split at h
    · rename_i hS
      injection h with h
      exact .inl ⟨.inl hS, h.symm⟩
    · rename_i hS
      injection h with h
      exact .inr ⟨hd, tl, hS, hh, ht, h.symm⟩
  · rename_i hno
    injection h with h
    refine .inl ⟨.inr ?_, h.symm⟩
    cases hh : s.head with
    | none => exact .inl rfl
    | some hd =>
      cases ht : s.tail with
      | none => exact .inr rfl
      | some tl => exact absurd ht (hno hd tl hh)

theorem State.issueWord_next {s taken s' : State} {port : Port} {w : CmdWord}
    (h : s.issueWord port w taken = .next s') :
    ∃ i, decode w = .ok i ∧
      ((i = .drain ∧ port = .c ∧ s.drainEnabled = false ∧ s' = s) ∨
        exec i (taken.issueOn port) = .next s') := by
  unfold State.issueWord at h
  split at h
  · cases h
  · rename_i i hi
    refine ⟨i, hi, ?_⟩
    split at h
    · rename_i hh
      injection h with h
      simp only [State.holds, Bool.and_eq_true, decide_eq_true_eq, Bool.not_eq_true'] at hh
      exact .inl ⟨hh.1.1, hh.1.2, hh.2, h.symm⟩
    · exact .inr h

/-- What a step can do. -/
theorem step_cases {s s' : State} (h : step s = .next s') :
    validInstance s.cfg = true ∧
      (s.sameBlock s' ∨
        (∃ i u, s.sameBlock u ∧ exec i u = .next s') ∨
        (∃ u, s.sameBlock u ∧ txDone u = .next s') ∨
        (∃ u, s.sameBlock u ∧ syncH u = .next s') ∨
        (∃ u, s.sameBlock u ∧ syncT u = .next s')) := by
  unfold step State.takeStep at h
  split at h
  case isFalse => cases h
  case isTrue hc =>
    refine ⟨hc, ?_⟩
    have hadv := State.sameBlock_advance s
    unfold State.sameBlock at hadv ⊢
    generalize s.turn = turn at h
    cases turn <;> simp only [State.runTurn] at h
    case producer =>
      unfold State.producerTurn at h
      split at h
      · injection h with h
        exact .inl (by rw [← h]; exact hadv)
      · obtain ⟨i, -, ⟨-, hp, -, -⟩ | h⟩ := State.issueWord_next h
        · cases hp
        · refine .inr (.inl ⟨i, _, ?_, h⟩)
          rw [hadv]; rfl
      · split at h
        · injection h with h
          refine .inl ?_
          rw [← h, hadv]; rfl
        · cases h
    case consumer =>
      unfold State.consumerTurn at h
      split at h
      · injection h with h
        exact .inl (by rw [← h]; exact hadv)
      · obtain ⟨i, -, ⟨-, -, -, rfl⟩ | h⟩ := State.issueWord_next h
        · exact .inl hadv
        · refine .inr (.inl ⟨i, _, ?_, h⟩)
          rw [hadv]; rfl
    case drain =>
      unfold State.drainTurn at h
      split at h
      · refine .inr (.inl ⟨.drain, _, ?_, h⟩)
        rw [hadv]; rfl
      · injection h with h
        exact .inl (by rw [← h]; exact hadv)
    case txDone => exact .inr (.inr (.inl ⟨_, hadv, h⟩))
    case syncH => exact .inr (.inr (.inr (.inl ⟨_, hadv, h⟩)))
    case syncT => exact .inr (.inr (.inr (.inr ⟨_, hadv, h⟩)))

/-- A step whose turn is settled is that turn. -/
theorem step_settled {s : State} {t : Turn} {turns : List Turn} (hc : validInstance s.cfg = true)
    (h : s.sched = t :: turns) : step s = State.runTurn { s with sched := turns } t := by
  unfold step State.takeStep
  simp only [hc, if_true, State.advance, State.turn, h, State.setSched]

/-- A property of the block that the inputs, the schedule and the issuing port do not touch is kept by
every step, if every command, TX_DONE and every synchroniser edge keeps it. -/
theorem step_keeps (P : State → Prop)
    (hsame : ∀ s s' : State, s.sameBlock s' → P s → P s')
    (hexec : ∀ (s s' : State) (i : Instr), P s → exec i s = .next s' → P s')
    (htx : ∀ s s' : State, P s → txDone s = .next s' → P s')
    (hsh : ∀ s s' : State, P s → syncH s = .next s' → P s')
    (hst : ∀ s s' : State, P s → syncT s = .next s' → P s')
    {s s' : State} (hs : P s) (h : step s = .next s') : P s' := by
  obtain ⟨-, hu | ⟨i, u, hu, h⟩ | ⟨u, hu, h⟩ | ⟨u, hu, h⟩ | ⟨u, hu, h⟩⟩ := step_cases h
  · exact hsame _ _ hu hs
  · exact hexec _ _ i (hsame _ _ hu hs) h
  · exact htx _ _ (hsame _ _ hu hs) h
  · exact hsh _ _ (hsame _ _ hu hs) h
  · exact hst _ _ (hsame _ _ hu hs) h

end Sys2Proof.Machine
end

