-- ==== Sys2Proof/Laws/Runs.lean ====
section
/-! SUPPORT. Runs: what the outside world can change between two steps, and the induction along a run, once. -/

namespace Sys2Proof.Machine

theorem State.sameButInputs_refl (s : State) : s.sameButInputs s := rfl

/-- New inputs leave the block as it is. -/
theorem State.sameBlock_of_sameButInputs {s s' : State} (h : s.sameButInputs s') : s.sameBlock s' := by
  unfold State.sameButInputs at h
  unfold State.sameBlock
  rw [h]

/-- A property that every step and every new input keeps holds along a run, from any point on. -/
theorem IsRun.keeps {r : Nat → State} (hr : IsRun r) {P : State → Prop}
    (hstep : ∀ s s', P s → step s = .next s' → P s')
    (hin : ∀ s s', State.sameButInputs s s' → P s → P s')
    {n : Nat} (hn : P (r n)) {m : Nat} (hm : n ≤ m) : P (r m) := by
  induction m, hm using Nat.le_induction with
  | base => exact hn
  | succ m _ ih =>
    obtain ⟨s', h, hi⟩ := hr m
    exact hin _ _ hi (hstep _ _ ih h)

end Sys2Proof.Machine
end

