-- ==== Sys2Proof/Tests/Slice0.lean ====
section
/-! SUPPORT. Tests: ill-formed terms refused, words decoded, one step at a time against the vectors T1 to
T110 of spec/95_test_vectors.md, and for each statement with hypotheses a state that meets them. -/

namespace Sys2Proof.Tests

open Sys2Proof Sys2Proof.Machine

/-! ### Helpers -/

/-- An instance with the spec's example clock (T60) and interrupts on. -/
def inst (C S : Nat) : Config := ⟨C, S, 16000000, true⟩

/-- A state with cursors `h`, `t` that both synchronisers show exactly. -/
def at2 (C S h t : Nat) (m : Memory) : State :=
  { State.powerOn (inst C S) with
    head := some h, tail := some t, storage := m
    hs := List.replicate S (some (enc C h)), ts := List.replicate S (some (enc C t)) }

/-- T54's start: one byte queued in slot 2, armed, with a trace and wire that fit. -/
def t54 : State :=
  { at2 4 0 3 2 [(2, 0x61#8)] with armed := true, issuer := .c, trace := [.init, .put 0x61#8, .arm] }

/-- T57's start: empty at 3, armed. -/
def t57 : State := { at2 4 0 3 3 [] with armed := true, issuer := .c }

/-- T81's start: the byte `0x31` stored, its head value one edge away from the consumer view. -/
def t81 : State :=
  { at2 4 2 1 0 [(0, 0x31#8)] with hs := [some 1, some 0], trace := [.init, .put 0x31#8] }

/-- A word to be issued on a port. -/
def issuing (port : Port) (w : CmdWord) (s : State) : State :=
  match port with
  | .p => { s with sched := [.producer], pq := [.word w] }
  | .c => { s with sched := [.consumer], cq := [w] }

/-- The outcome is a next state with a property. -/
def goesOn (r : Result) (p : State → Bool) : Bool :=
  match r with
  | .next s => p s
  | .fault _ => false
  | .refused _ => false

theorem goesOn_eq {r : Result} {t : State} (h : goesOn r (· == t) = true) : r = .next t := by
  cases r with
  | next s => rw [eq_of_beq h]
  | fault f => cases h
  | refused f => cases h

def faultsWith (r : Result) (f : Fault) : Bool :=
  match r with
  | .next _ => false
  | .fault g => g == f
  | .refused _ => false

def refusedWith (r : Result) (f : Refusal) : Bool :=
  match r with
  | .next _ => false
  | .fault _ => false
  | .refused g => g == f

/-! ### Ill-formed terms -/

theorem test_wf_begin : Instr.wf (.begin 2147483647) = true ∧ Instr.wf (.begin 2147483648) = false ∧
    Instr.wf (.begin (-2147483648)) = true ∧ Instr.wf (.begin (-2147483649)) = false := by decide
theorem test_wf_text : Call.wf (.print [0x68#8, 0x69#8]) = true ∧
    Call.wf (.print [0x68#8, 0x00#8]) = false ∧ Call.wf (.println [0x00#8]) = false := by decide
theorem test_wf_int : Call.wf (.printInt (-2147483648)) = true ∧
    Call.wf (.printInt 2147483648) = false ∧ Call.wf (.printIntLn (-2147483649)) = false := by decide
/-- T107, T108. -/
theorem test_wf_float : Call.wf (.printFloat 0x4EFFFFFF#32 0#8) = true ∧
    Call.wf (.printFloat 0x4F000000#32 0#8) = false ∧ Call.wf (.printFloat 0x7FC00000#32 1#8) = false ∧
    Call.wf (.printFloatLn 0x7F800000#32 0#8) = false ∧
    Call.wf (.printFloatLn 0xFF800000#32 0#8) = false := by decide
/-- T76, T34. -/
theorem test_wf_instance : validInstance (inst 0 0) = false ∧ validInstance (inst 1 0) = true ∧
    validInstance (inst 99 0) = true ∧ validInstance (inst 5 1) = false ∧
    validInstance (inst 1 1) = false ∧ validInstance (inst 2 1) = true := by decide
theorem test_wf_memory : Memory.wf [(0, 0x61#8), (2, 0x62#8)] = true ∧
    Memory.wf [(2, 0x61#8), (0, 0x62#8)] = false ∧ Memory.wf [(2, 0x61#8), (2, 0x62#8)] = false ∧
    Memory.within 4 [(4, 0x61#8)] = false := by decide
theorem test_wf_state : (at2 4 0 3 2 [(2, 0x61#8)]).wf = true ∧ (at2 4 0 4 2 [(2, 0x61#8)]).wf = false ∧
    t81.wf = true ∧ { t81 with hs := [some 1] }.wf = false ∧ { t81 with tail := none }.wf = false := by decide

/-! ### Words, written out from the formats Z, B, W (R72 to R76) -/

theorem test_decode_Z :
    decode 0b0000000100000000000000000000000000000000#40 = .ok .init ∧
    decode 0b0000001000000000000000000000000000000000#40 = .ok .isEmpty ∧
    decode 0b0000001100000000000000000000000000000000#40 = .ok .isFull ∧
    decode 0b0000010100000000000000000000000000000000#40 = .ok .get ∧
    decode 0b0000100000000000000000000000000000000000#40 = .ok .drain := by
  refine ⟨?_, ?_, ?_, ?_, ?_⟩ <;> rfl
theorem test_decode_B :
    decode 0b0000010000000000000000000000000001000001#40 = .ok (.put 0x41#8) ∧
    decode 0b0000011100000000000000000000000001101000#40 = .ok (.emit 0x68#8) := by
  refine ⟨?_, ?_⟩ <;> rfl
theorem test_decode_W :
    decode 0b0000011000000000000000000010010110000000#40 = .ok (.begin 9600) ∧
    decode 0b0000011011111111111111111111111111111111#40 = .ok (.begin (-1)) := by
  refine ⟨?_, ?_⟩ <;> rfl
/-- T12 to T17. -/
theorem test_decode_reserved :
    decode 0x0000000000#40 = .error .opcode ∧ decode 0x0900000000#40 = .error .opcode ∧
    decode 0xFF00000000#40 = .error .opcode ∧ decode 0x0100000001#40 = .error .argZ ∧
    decode 0x0400000100#40 = .error .argB ∧ decode 0x07FFFFFF41#40 = .error .argB := by
  refine ⟨?_, ?_, ?_, ?_, ?_, ?_⟩ <;> rfl
/-- T61, T19. -/
theorem test_encode : encode (.begin 115200) = 0x060001C200#40 ∧
    encode (.begin (-2147483648)) = 0x0680000000#40 ∧ encode (.put 0xFF#8) = 0x04000000FF#40 := by decide
theorem test_table_word : decodeTableWord 40 0x0400000041 = some (.put 0x41#8) ∧
    decodeTableWord 40 0x0900000000 = none ∧ decodeTableWord 48 0x0100000000 = none := by decide

/-! ### One step: the commands -/

/-- T47. -/
theorem test_init : goesOn (exec .init { at2 4 0 3 1 [(1, 0x62#8)] with armed := true }) (fun s =>
    s.head == some 0 && s.tail == some 0 && s.armed && s.storage == [(1, 0x62#8)] &&
      s.trace == [.init] && s.resp == some 0x000#9) = true := by decide
/-- T87. -/
theorem test_init_stages : goesOn (exec .init (State.powerOn (inst 100 2))) (fun s =>
    s.hs == [some 0b0001001, some 0b0001001] && s.ts == s.hs) = true := by decide
/-- T30, T32. -/
theorem test_isEmpty : goesOn (exec .isEmpty (at2 4 0 2 2 [])) (fun s => s.resp == some 0x100#9) = true ∧
    goesOn (exec .isEmpty (at2 4 0 0 1 [])) (fun s => s.resp == some 0x000#9) = true := by decide
/-- T31, T33. -/
theorem test_isFull : goesOn (exec .isFull (at2 4 0 3 0 [])) (fun s => s.resp == some 0x100#9) = true ∧
    goesOn (exec .isFull (at2 4 0 1 3 [])) (fun s => s.resp == some 0x000#9) = true := by decide
/-- T85: a full view with room behind it. -/
theorem test_isFull_lags : goesOn (exec .isFull { at2 4 2 3 1 [] with ts := [some 0, some 0] })
    (fun s => s.resp == some 0x100#9) = true := by decide
/-- T46. -/
theorem test_put_wraps : goesOn (exec (.put 0x45#8) (at2 4 0 3 2 [(2, 0x61#8)])) (fun s =>
    s.resp == some 0x100#9 && s.storage == [(2, 0x61#8), (3, 0x45#8)] && s.head == some 0 &&
      !s.armed) = true := by decide
/-- T24. -/
theorem test_put_drops : goesOn (exec (.put 0x44#8) (at2 4 0 3 0 [(0, 0x41#8)])) (fun s =>
    s.resp == some 0x000#9 && s.storage == [(0, 0x41#8)] && s.head == some 3 &&
      s.trace == [.drop 0x44#8]) = true := by decide
/-- T45. -/
theorem test_get_wraps : goesOn (exec .get { at2 4 0 1 3 [(0, 0x46#8), (3, 0x45#8)] with issuer := .c })
    (fun s => s.resp == some 0x145#9 && s.tail == some 0 && s.trace == [.get 0x45#8]) = true := by decide
/-- T43, T44. -/
theorem test_get_none_or_zero :
    goesOn (exec .get { at2 4 0 2 2 [] with issuer := .c })
      (fun s => s.resp == some 0x000#9 && s.tail == some 2 && s.trace == []) = true ∧
    goesOn (exec .get { at2 4 0 1 0 [(0, 0x00#8)] with issuer := .c })
      (fun s => s.resp == some 0x100#9) = true := by decide
/-- T60, T68. -/
theorem test_begin : goesOn (exec (.begin 9600)
    { at2 4 0 3 1 [] with armed := true, txfree := false, txreg := some 0x61#8 }) (fun s =>
    s.divisor == some 207 && s.txen && s.head == some 0 && s.tail == some 0 && s.armed && !s.txfree &&
      s.txreg == some 0x61#8) = true := by decide
/-- T65, T67, T19a. -/
theorem test_begin_rates : bitRateDivisor 16000000 2000001 = -1 ∧
    bitRateDivisor 16000000 2147483647 = -1 ∧ bitRateDivisor 1000000 1 = 124999 ∧
    refusedWith (exec (.begin 0) State.reset) .badBaud = true := by decide
/-- T50, T53. -/
theorem test_emit_arms : goesOn (exec (.emit 0x61#8) (at2 4 0 2 2 [])) (fun s =>
    s.storage == [(2, 0x61#8)] && s.head == some 3 && s.armed && s.resp == some 0x100#9 &&
      s.trace == [.put 0x61#8, .arm]) = true ∧
    goesOn (exec (.emit 0x64#8) { at2 4 0 2 2 [] with armed := true })
      (fun s => s.trace == [.put 0x64#8, .arm]) = true := by decide
/-- T52, T59a, T59b, T77. -/
theorem test_emit_edges :
    goesOn (exec (.emit 0x63#8) { at2 4 0 1 2 [] with armed := true }) (fun s =>
      s.resp == some 0x000#9 && s.trace == [.drop 0x63#8] && s.gie) = true ∧
    goesOn (exec (.emit 0x41#8) (at2 1 0 0 0 [])) (fun s =>
      s.armed && s.storage == [] && s.trace == [.drop 0x41#8, .arm]) = true ∧
    goesOn (exec (.emit 0x41#8) { at2 4 0 2 2 [] with gie := false }) (fun s => !s.gie) = true ∧
    goesOn (exec (.emit 0x31#8) (at2 4 2 0 0 [])) (fun s => !s.armed && s.head == some 1) = true := by decide
/-- T54, T57. -/
theorem test_drain : goesOn (exec .drain t54) (fun s =>
      s.resp == some 0x161#9 && s.tail == some 3 && s.txreg == some 0x61#8 && !s.txfree && s.armed) = true ∧
    goesOn (exec .drain t57) (fun s =>
      s.resp == some 0x000#9 && !s.armed && s.trace == [.disarm]) = true := by decide
/-- T55, T58, T59: held. -/
theorem test_drain_held :
    exec .drain { t54 with txfree := false } = .next { t54 with txfree := false } ∧
    exec .drain { t57 with armed := false } = .next { t57 with armed := false } ∧
    exec .drain { t54 with gie := false } = .next { t54 with gie := false } := ⟨rfl, rfl, rfl⟩

/-! ### One step: ports, initialisation, the other turns -/

/-- T19b, T19c, T19f, T19g, T48. -/
theorem test_checks :
    refusedWith (step (issuing .p 0x0500000000#40 (at2 4 0 0 0 []))) .wrongPort = true ∧
    refusedWith (step (issuing .c 0x0400000041#40 (at2 4 0 0 0 []))) .wrongPort = true ∧
    refusedWith (step (issuing .c 0x0400000041#40 State.reset)) .wrongPort = true ∧
    refusedWith (step (issuing .p 0x0400000100#40 State.reset)) .reservedEncoding = true ∧
    faultsWith (step (issuing .p 0x0400000041#40 State.reset)) .uninitUse = true ∧
    goesOn (step (issuing .c 0x0800000000#40 State.reset)) (fun s => s.cq == [0x0800000000#40]) = true := by
  decide
/-- T56, T88. -/
theorem test_txDone : goesOn (step { t54 with sched := [.txDone], txfree := false, txreg := some 0x68#8 })
    (fun s => s.line == [0x68#8] && s.txfree && s.txreg == some 0x68#8) = true := by decide
/-- T81, T80. -/
theorem test_syncH : goesOn (step { t81 with sched := [.syncH] })
      (fun s => s.hs == [some 1, some 1] && s.armed && s.trace.getLast? == some .arm) = true ∧
    goesOn (step { t81 with sched := [.syncH], hs := [some 0, some 0] })
      (fun s => s.hs == [some 1, some 0] && !s.armed) = true := by decide
/-- T83. -/
theorem test_syncT : goesOn (step { at2 4 2 1 1 [] with sched := [.syncT], ts := [some 0, some 0] })
    (fun s => s.ts == [some 1, some 0] && s.hs == [some 1, some 1]) = true := by decide
theorem test_drain_turn : goesOn (step { t54 with sched := [.drain], issuer := .p })
    (fun s => s.resp == some 0x161#9 && s.txreg == some 0x61#8) = true := by decide
theorem test_call_turn : goesOn (step { at2 4 0 0 0 [] with
      sched := [.producer], pq := [.call (.println [0x68#8, 0x69#8])] }) (fun s =>
    s.pq == [.word 0x0700000068#40, .word 0x0700000069#40, .word 0x070000000D#40,
      .word 0x070000000A#40]) = true := by decide
theorem test_fetch_word : goesOn (step (State.reset.withFetchWord 40 0x0600002580))
      (fun s => s.divisor == some 207) = true ∧
    goesOn (step (State.reset.withFetchWord 40 0x0100000000)) (fun s => s.head == some 0) = true := by
  decide

/-! ### Codes and calls -/

/-- T71, T72, T74. -/
theorem test_enc : (List.range 4).map (enc 4) = [0b00, 0b01, 0b11, 0b10] ∧
    (List.range 6).map (enc 6) = [0b001, 0b011, 0b010, 0b110, 0b111, 0b101] ∧
    (List.range 10).map (enc 10) = [0b0010, 0b0110, 0b0111, 0b0101, 0b0100, 0b1100, 0b1101, 0b1111,
      0b1110, 0b1010] := by decide
/-- T75, and `dec` of a word outside the code. -/
theorem test_enc_100 : enc 100 0 = 0b0001001 ∧ enc 100 50 = 0b1100000 ∧ enc 100 99 = 0b1001001 ∧
    dec 100 0b1100000 = some 50 ∧ dec 6 0b110 = some 3 ∧ dec 6 0b000 = none := by decide
/-- T95, T96, T94. -/
theorem test_print_int :
    printIntBytes (-2147483648) = [0x2D#8, 0x32#8, 0x31#8, 0x34#8, 0x37#8, 0x34#8, 0x38#8, 0x33#8,
      0x36#8, 0x34#8, 0x38#8] ∧
    printIntBytes 1000000000 = [0x31#8, 0x30#8, 0x30#8, 0x30#8, 0x30#8, 0x30#8, 0x30#8, 0x30#8,
      0x30#8, 0x30#8] ∧
    printIntBytes (-10) = [0x2D#8, 0x31#8, 0x30#8] := by decide
/-- T98, T105, T102, T103. -/
theorem test_print_float :
    printFloatBytes 0xBF000000#32 2 = [0x2D#8, 0x30#8, 0x2E#8, 0x35#8, 0x30#8] ∧
    printFloatBytes 0x80000000#32 1 = [0x30#8, 0x2E#8, 0x30#8] ∧
    printFloatBytes 0x3F7FBE77#32 2 = [0x30#8, 0x2E#8, 0x39#8, 0x39#8] ∧
    printFloatBytes 0x411FFBE7#32 0 = [0x39#8] := by decide
/-- E6: `3.14159` is `0x40490FD0`. -/
theorem test_float_of_decimal : floatOfDecimal false 314159 5 = 0x40490FD0#32 ∧
    floatOfDecimal false 42718 3 = 0x422ADF3B#32 := by decide
/-- A decimal too large for binary32 is an infinity, and PRINT_FLOAT of it is refused (R184). -/
theorem test_float_overflow : floatOfDecimal false (2 ^ 129) 0 = 0x7F800000#32 ∧
    floatOfDecimal true (2 ^ 128) 0 = 0xFF800000#32 ∧
    floatOfDecimal false (2 ^ 128 - 2 ^ 104) 0 = 0x7F7FFFFF#32 ∧
    floatOutOfRange 0x7F800000#32 = true := by decide
theorem test_listing :
    readListing "P: BEGIN 9600".toList = some (.command (some .p) (.begin 9600)) ∧
    readListing ['E', 'M', 'I', 'T', ' ', '\'', '\\', 'r', '\''] = some (.command none (.emit 0x0D#8)) ∧
    readListing "D: TX_DONE".toList = some (.turn .txDone) ∧
    readListing "PRINT_FLOAT 42.718, 0".toList = some (.call (.printFloat 0x422ADF3B#32 0#8)) ∧
    readListing "PUT 256".toList = none := by decide
/-- The text of T91; one with U+0100 in it is not read (log 27). -/
theorem test_listing_text :
    readText [Char.ofNat 34, 'h', 'i', Char.ofNat 34] = some [0x68#8, 0x69#8] ∧
    readText [Char.ofNat 34, 'h', Char.ofNat 256, Char.ofNat 34] = none := by decide

/-! ### For each statement with hypotheses, a state and operands that meet them -/

theorem test_meets_decodeOfEncode : Instr.wf (.begin 2147483647) = true ∧
    Instr.wf (.begin (-2147483648)) = true ∧ Instr.wf (.put 0xFF#8) = true := by decide
theorem test_meets_encodeOfDecode : decode 0x0680000000#40 = .ok (.begin (-2147483648)) ∧
    decode 0x07000000FF#40 = .ok (.emit 0xFF#8) := ⟨rfl, rfl⟩
theorem test_meets_reserved : validInstance (inst 4 0) = true ∧
    (issuing .p 0x0000000000#40 (at2 4 0 0 0 [])).aboutToIssue .p 0x0000000000#40 ∧
    decode 0x0000000000#40 = .error .opcode ∧
    (issuing .c 0x0100000001#40 (at2 4 0 0 0 [])).aboutToIssue .c 0x0100000001#40 ∧
    decode 0x0100000001#40 = .error .argZ :=
  ⟨rfl, ⟨⟨[], rfl⟩, [], rfl⟩, rfl, ⟨⟨[], rfl⟩, [], rfl⟩, rfl⟩
theorem test_meets_producersWord :
    let s := issuing .p 0x0400000041#40 (at2 4 0 0 0 [])
    validInstance s.cfg = true ∧ s.sched = [.producer] ∧ s.pq = [.word 0x0400000041#40] ∧
      decode 0x0400000041#40 = .ok (.put 0x41#8) := ⟨rfl, rfl, rfl, rfl⟩
theorem test_meets_consumersWord :
    let s := issuing .c 0x0800000000#40 t54
    validInstance s.cfg = true ∧ s.sched = [.consumer] ∧ s.cq = [0x0800000000#40] ∧
      decode 0x0800000000#40 = .ok .drain ∧ s.drainEnabled = true := ⟨rfl, rfl, rfl, rfl, rfl⟩
theorem test_meets_unencodedTurns : validInstance (inst 4 2) = true ∧
    ({ t57 with sched := [.producer] }.pq = [] ∧ { t57 with sched := [.consumer] }.cq = []) ∧
    (t57.cfg.S = 0 ∧ State.reset.head = none) ∧
    { t81 with sched := [.drain] }.sched = [.drain] ∧ { t81 with sched := [.txDone] }.sched = [.txDone] ∧
    { t81 with sched := [.syncH] }.sched = [.syncH] ∧ { t81 with sched := [.syncT] }.sched = [.syncT] ∧
    t81.sched = [] := ⟨rfl, ⟨rfl, rfl⟩, ⟨rfl, rfl⟩, rfl, rfl, rfl, rfl, rfl⟩
theorem test_meets_printCall :
    let s := { at2 4 0 0 0 [] with sched := [.producer], pq := [.call (.printInt 7)] }
    validInstance s.cfg = true ∧ s.sched = [.producer] ∧ s.pq = [.call (.printInt 7)] ∧
      callBytes (.printInt 7) = .ok [0x37#8] ∧
      callBytes (.printFloat 0x4F000000#32 0#8) = .error .floatRange := ⟨rfl, rfl, rfl, rfl, rfl⟩
/-- A word for each clause: reserved, wrong port, held, uninitialised, held before initialisation. -/
theorem test_meets_checks :
    (issuing .p 0x0900000000#40 State.reset).aboutToIssue .p 0x0900000000#40 ∧
    decode 0x0900000000#40 = .error .opcode ∧
    (issuing .p 0x0500000000#40 State.reset).aboutToIssue .p 0x0500000000#40 ∧
    decode 0x0500000000#40 = .ok .get ∧ accepts .get .p = false ∧
    (issuing .c 0x0800000000#40 State.reset).aboutToIssue .c 0x0800000000#40 ∧
    decode 0x0800000000#40 = .ok .drain ∧ accepts .drain .c = true ∧ State.reset.drainEnabled = false ∧
    State.reset.head = none ∧ (issuing .c 0x0800000000#40 State.reset).wf = true ∧
    accepts .get .c = true ∧ (issuing .c 0x0500000000#40 State.reset).aboutToIssue .c 0x0500000000#40 :=
  ⟨⟨⟨[], rfl⟩, [], rfl⟩, rfl, ⟨⟨[], rfl⟩, [], rfl⟩, rfl, rfl, ⟨⟨[], rfl⟩, [], rfl⟩, rfl, rfl, rfl, rfl,
    rfl, rfl, ⟨⟨[], rfl⟩, [], rfl⟩⟩
theorem test_meets_ports : validInstance State.reset.cfg = true ∧ State.reset.issuer = .p ∧
    validInstance t54.cfg = true ∧ t54.issuer = .c := by decide
theorem test_meets_badCapacity : (at2 0 0 0 0 []).cfg.C = 0 ∧
    (1 ≤ (at2 5 1 0 0 []).cfg.S ∧ (at2 5 1 0 0 []).cfg.C % 2 = 1) := by decide
theorem test_meets_powerOn : validInstance (inst 1 0) = true ∧ validInstance (inst 100 2) = true := by
  decide
theorem test_meets_views : (at2 4 0 3 2 [(2, 0x61#8)]).cfg.S = 0 ∧ 1 ≤ t81.cfg.S ∧ t81.wf = true ∧
    t81.head = some 1 ∧ t81.tail = some 0 ∧ t81.ts = [some 0] ++ [some 0] ∧
    t81.hs = [some 1] ++ [some 0] ∧ dec 4 0 = some 0 := by decide
theorem test_meets_occupancy : (0 < 1 ∧ 0 < 1) ∧ (99 < 100 ∧ 0 < 100) ∧
    t54.head = some 3 ∧ t54.tail = some 2 ∧ 0 < dist t54.cfg.C 2 3 := by decide
theorem test_meets_gray : (5 < 2 ^ 3 ∧ 2 < 3) ∧ 6 + 1 < 2 ^ 3 ∧ (1 ≤ 1 ∧ 1 < 2 ^ 1) := by decide
theorem test_meets_pointerCode : (2 ≤ 2 ∧ 2 % 2 = 0 ∧ 1 < 2) ∧ (2 ≤ 100 ∧ 100 % 2 = 0 ∧ 99 < 100) ∧
    dec 100 0b1001001 = some 99 := by decide
theorem test_meets_init : validInstance State.reset.cfg = true ∧ State.reset.issuer = .p ∧
    validInstance t81.cfg = true ∧ t81.issuer = .p := by decide
theorem test_meets_flags : validInstance (inst 1 0) = true ∧
    (at2 1 0 0 0 []).view .p = .ok (0, 0) ∧ t54.view t54.issuer = .ok (3, 2) ∧
    t81.view .p = .ok (1, 0) ∧ t81.view .c = .ok (0, 0) := ⟨rfl, rfl, rfl, rfl, rfl⟩
/-- A full view, and the last slot of a view with room. -/
theorem test_meets_put : (at2 4 0 3 0 []).issuer = .p ∧ (at2 4 0 3 0 []).view .p = .ok (3, 0) ∧
    (3 + 1) % 4 = 0 ∧ (at2 4 0 3 2 []).view .p = .ok (3, 2) ∧ (3 + 1) % 4 ≠ 2 ∧ 3 < 4 :=
  ⟨rfl, rfl, rfl, rfl, by decide, by decide⟩
theorem test_meets_get : t54.issuer = .c ∧ t54.view .c = .ok (3, 2) ∧ 2 < t54.cfg.C ∧
    Memory.read t54.storage 2 = some 0x61#8 ∧ t57.view .c = .ok (3, 3) := ⟨rfl, rfl, by decide, rfl, rfl⟩
theorem test_meets_emit : (at2 4 2 1 2 []).view .p = .ok (1, 2) ∧ (1 + 1) % 4 = 2 ∧
    (at2 1 0 0 0 []).view .p = .ok (0, 0) ∧ (0 + 1) % 1 = 0 ∧ (at2 4 0 2 2 []).view .p = .ok (2, 2) ∧
    (2 + 1) % 4 ≠ 2 := ⟨rfl, rfl, rfl, rfl, rfl, by decide⟩
theorem test_meets_begin : validInstance State.reset.cfg = true ∧ State.reset.issuer = .p ∧
    (0 : Int) ≤ 0 ∧ (0 : Int) < 1 := by decide
/-- Held for each of its three reasons; enabled and empty; enabled with a byte. -/
theorem test_meets_drain : validInstance t54.cfg = true ∧ t54.issuer = .c ∧
    ({ t54 with armed := false }.armed = false ∧ { t54 with txfree := false }.txfree = false ∧
      { t54 with gie := false }.gie = false) ∧
    (t57.armed = true ∧ t57.txfree = true ∧ t57.gie = true ∧ t57.view .c = .ok (3, 3)) ∧
    (t54.armed = true ∧ t54.txfree = true ∧ t54.gie = true ∧ t54.view .c = .ok (3, 2) ∧
      Memory.read t54.storage 2 = some 0x61#8) :=
  ⟨rfl, rfl, ⟨rfl, rfl, rfl⟩, ⟨rfl, rfl, rfl, rfl⟩, rfl, rfl, rfl, rfl, rfl⟩
theorem test_meets_responses : (at2 4 0 2 2 []).view (at2 4 0 2 2 []).issuer = .ok (2, 2) ∧
    (∃ s', exec (.put 0x41#8) (at2 4 0 2 2 []) = .next s') ∧
    (∃ s', exec (.emit 0x41#8) (at2 4 0 2 2 []) = .next s') ∧
    t54.view t54.issuer = .ok (3, 2) ∧ t54.drainEnabled = true ∧ (∃ s', exec .get t54 = .next s') ∧
    (∃ s', exec .drain t54 = .next s') := ⟨rfl, ⟨_, rfl⟩, ⟨_, rfl⟩, rfl, rfl, ⟨_, rfl⟩, ⟨_, rfl⟩⟩
theorem test_meets_txDone : t54.txfree = true ∧
    { t54 with txfree := false, txreg := some 0x68#8 }.txfree = false ∧
    { t54 with txfree := false, txreg := some 0x68#8 }.txreg = some 0x68#8 ∧ t54.armed = true ∧
    t54.gie = true := by decide
theorem test_meets_syncH : (at2 4 0 0 0 []).cfg.S = 0 ∧ State.reset.head = none ∧ 1 ≤ t81.cfg.S ∧
    t81.head = some 1 ∧ t81.tail = some 0 ∧ t81.view .c = .ok (0, 0) ∧
    State.view { t81 with hs := some (enc t81.cfg.C 1) :: t81.hs.dropLast } .c = .ok (1, 0) :=
  ⟨rfl, rfl, by decide, rfl, rfl, rfl, rfl⟩
theorem test_meets_syncT : 1 ≤ (at2 2 1 1 0 []).cfg.S ∧ (at2 2 1 1 0 []).ts = [] ++ [some 0] ∧
    1 ≤ t81.cfg.S ∧ t81.head = some 1 ∧ t81.tail = some 0 ∧ t81.ts = [some 0] ++ [some 0] := by decide
theorem test_meets_cursorsReach : t81.wf = true ∧ 1 ≤ t81.cfg.S ∧ t81.head = some 1 ∧
    t81.tail = some 0 := by decide
theorem test_meets_initFrame : (∃ s', exec .init State.reset = .next s') ∧
    ∃ s', exec (.begin 9600) State.reset = .next s' := ⟨⟨_, rfl⟩, _, rfl⟩
theorem test_meets_flagFrame : (∃ s', exec .isEmpty (at2 4 0 2 2 []) = .next s') ∧
    ∃ s', exec .isFull t54 = .next s' := ⟨⟨_, rfl⟩, _, rfl⟩
theorem test_meets_putFrame : (∃ s', exec (.put 0x41#8) (at2 4 0 2 2 []) = .next s') ∧
    (∃ s', exec (.emit 0x41#8) (at2 4 0 2 2 []) = .next s') ∧ (at2 4 0 2 2 []).head ≠ some 3 :=
  ⟨⟨_, rfl⟩, ⟨_, rfl⟩, by decide⟩
theorem test_meets_getFrame : (∃ s', exec .get t54 = .next s') ∧ ∃ s', exec .drain t54 = .next s' :=
  ⟨⟨_, rfl⟩, _, rfl⟩
theorem test_meets_gieKept : ∃ s', step { t54 with sched := [.drain] } = .next s' := ⟨_, rfl⟩
/-- A command that arms, one that disarms, and an edge that arms. -/
theorem test_meets_armedEdges :
    (∃ s', exec (.emit 0x61#8) (at2 4 0 2 2 []) = .next s' ∧ s'.armed = true) ∧
    (∃ s', exec .drain t57 = .next s' ∧ s'.armed = false) ∧
    (∃ s', syncH t81 = .next s' ∧ s'.armed = true) ∧ (∃ s', syncT t81 = .next s') ∧
    ∃ s', txDone t81 = .next s' := ⟨⟨_, rfl, rfl⟩, ⟨_, rfl, rfl⟩, ⟨_, rfl, rfl⟩, ⟨_, rfl⟩, _, rfl⟩
theorem test_meets_ownership : (∃ s', exec .get t54 = .next s') ∧ t54.issuer = .c ∧
    (∃ s', exec (.emit 0x61#8) (at2 4 0 2 2 []) = .next s') ∧ (at2 4 0 2 2 []).issuer = .p :=
  ⟨⟨_, rfl⟩, rfl, ⟨_, rfl⟩, rfl⟩
/-- All four invariants together, in a state that a step leaves. -/
theorem test_meets_invariants : t54.wf = true ∧ t54.ringOrdered = true ∧ t54.fifo ∧ t54.deviceAccount ∧
    (t54.txfree = false → t54.armed = true) ∧ t54.head.isSome = true ∧
    ∃ s', step { t54 with sched := [.drain] } = .next s' :=
  ⟨rfl, rfl, fun _ => rfl, rfl, fun _ => rfl, rfl, _, rfl⟩
theorem test_meets_consumerViewArmed : t81.wf = true ∧ 1 ≤ t81.cfg.S ∧
    (∀ h t, t81.view .c = .ok (h, t) → h ≠ t → t81.armed = true) ∧
    ∃ s' h t, step { t81 with sched := [.syncH] } = .next s' ∧ s'.view .c = .ok (h, t) ∧ h ≠ t := by
  refine ⟨rfl, by decide, fun h t hv hne => ?_, _, 1, 0, rfl, rfl, by decide⟩
  injection hv with hv
  injection hv with h1 h2
  exact absurd (h1.symm.trans h2) hne
theorem test_meets_queuedArmed : t54.wf = true ∧ t54.cfg.S = 0 ∧
    (t54.head ≠ t54.tail → t54.armed = true) ∧ Instr.drain ≠ .put 0x41#8 ∧
    ∃ s', exec .drain { t54 with head := some 0 } = .next s' ∧ s'.head ≠ s'.tail :=
  ⟨rfl, rfl, fun _ => rfl, by decide, _, rfl, by decide⟩
theorem test_meets_stuck :
    let s := at2 4 0 3 2 [(2, 0x61#8)]
    s.wf = true ∧ s.cfg.S = 0 ∧ s.armed = false ∧ s.head ≠ s.tail ∧
      ∃ s', exec (.emit 0x62#8) s = .next s' := ⟨rfl, rfl, rfl, by decide, _, rfl⟩
/-- With synchronisers that lag, a view with room and a view with a byte. -/
theorem test_meets_conservative :
    let s := { at2 4 2 3 1 [] with ts := [some 1, some 0], hs := [some 2, some 3] }
    s.wf = true ∧ s.ringOrdered = true ∧ s.head = some 3 ∧ s.tail = some 1 ∧
      s.view .c = .ok (2, 1) ∧ emptyFlag 2 1 = false ∧
      t81.wf = true ∧ t81.ringOrdered = true ∧ t81.view .p = .ok (1, 0) ∧ fullFlag 4 1 0 = false :=
  ⟨rfl, rfl, rfl, rfl, rfl, rfl, rfl, rfl, rfl, rfl⟩
theorem test_meets_capacity : (at2 4 2 3 3 []).wf = true ∧ (at2 4 2 3 3 []).issuer = .p ∧
    (at2 4 2 3 3 []).view .p = .ok (3, 3) ∧
    [0x41#8, 0x42#8, 0x43#8].length = (at2 4 2 3 3 []).cfg.C - 1 ∧
    (at2 1 0 0 0 []).wf = true ∧ ([] : List Byte).length = (at2 1 0 0 0 []).cfg.C - 1 :=
  ⟨rfl, rfl, rfl, rfl, rfl, rfl⟩
theorem test_meets_queue : (at2 4 0 3 2 [(2, 0x61#8)]).wf = true ∧
    (at2 4 0 3 2 [(2, 0x61#8)]).ringOrdered = true ∧
    (∃ s', exec (.emit 0x62#8) (at2 4 0 3 2 [(2, 0x61#8)]) = .next s' ∧ s'.head ≠ some 3) ∧
    t54.wf = true ∧ t54.ringOrdered = true ∧ ∃ s', exec .drain t54 = .next s' ∧ s'.tail ≠ t54.tail :=
  ⟨rfl, rfl, ⟨_, rfl, by decide⟩, rfl, rfl, _, rfl, by decide⟩
theorem test_meets_edgeTriggered :
    (∃ t u, exec (.emit 0x61#8) (at2 2 0 1 1 []) = .next t ∧ exec (.emit 0x62#8) t = .next u) ∧
    (at2 2 0 1 1 []).wf = true ∧ t57.wf = true ∧ t57.cfg.S = 0 ∧ 2 ≤ t57.cfg.C ∧ t57.armed = true ∧
    ∃ t, exec .drain t57 = .next t ∧ t.armed = false :=
  ⟨⟨_, _, rfl, rfl⟩, rfl, rfl, rfl, by decide, rfl, _, rfl, rfl⟩
theorem test_meets_drainsToIdle : t54.wf = true ∧ t54.fifo ∧ t54.cfg.S = 0 ∧ t54.issuer = .c ∧
    t54.drainEnabled = true ∧ t54.pq = [] ∧ t54.queue = [some 0x61#8] :=
  ⟨rfl, fun _ => rfl, rfl, rfl, rfl, rfl, rfl⟩
theorem test_meets_cursorCount :
    let s := { at2 4 0 1 0 [(0, 0x61#8)] with trace := [.init, .put 0x61#8], sched := [.txDone] }
    s.cursorsCount ∧ s.fifo ∧ s.head = some 1 ∧ s.tail = some 0 ∧ ∃ s', step s = .next s' := by
  refine ⟨fun h t hh ht => ?_, fun _ => rfl, rfl, rfl, _, rfl⟩
  injection hh with hh
  injection ht with ht
  exact ⟨hh.symm, ht.symm⟩
theorem test_meets_noFaults : t81.wf = true ∧ t81.ringOrdered = true ∧ t81.fifo ∧
    t81.head.isSome = true := ⟨rfl, rfl, fun _ => rfl, rfl⟩
theorem test_meets_print : (∀ b, b ∈ [0x68#8, 0x69#8] → b ≠ 0x00#8) ∧
    callBytes (.printInt (-1)) = .ok [0x2D#8, 0x31#8] ∧
    callBytes (.printFloat 0x422ADF3B#32 0#8) = .ok [0x34#8, 0x32#8] := ⟨by decide, rfl, rfl⟩
theorem test_meets_printInt : (-2147483648 : Int) ≤ 2147483647 ∧ (2147483647 : Int) ≤ 2147483647 := by
  decide
theorem test_meets_printFloat : isPrintableFloat 0x4EFFFFFF#32 = true ∧
    isPrintableFloat 0x80000000#32 = true ∧ isPrintableFloat 0x4F000000#32 = false := by decide

/-- A byte in flight, finished by the first step; then the device's turn again and again. -/
def sendingRun : Nat → State
  | 0 => { at2 4 0 3 3 [] with
      armed := true, gie := false, txfree := false, txreg := some 0x61#8, sched := [.txDone] }
  | _ + 1 => { at2 4 0 3 3 [] with
      armed := true, gie := false, txreg := some 0x61#8, line := [0x61#8], sched := [.txDone] }

theorem test_meets_fairTxDone : IsRun sendingRun ∧ FairTxDone sendingRun ∧
    (sendingRun 0).txfree = false ∧ (sendingRun 0).txreg = some 0x61#8 := by
  refine ⟨fun n => ?_, fun n _ => ⟨n, Nat.le_refl n, ?_⟩, rfl, rfl⟩
  · cases n <;> exact ⟨_, rfl, rfl⟩
  · cases n <;> rfl

/-- An enabled drain event, taken by the first step, which disarms; then the event's turn again and again. -/
def disarmingRun : Nat → State
  | 0 => { t57 with sched := [.drain] }
  | _ + 1 => { t57 with armed := false, trace := [.disarm], resp := some 0x000#9, sched := [.drain] }

theorem test_meets_fairDrain : IsRun disarmingRun ∧ FairDrain disarmingRun ∧
    (disarmingRun 0).drainEnabled = true := by
  refine ⟨fun n => ?_, fun n _ => ⟨n, Nat.le_refl n, .inl ?_⟩, rfl⟩
  · cases n <;> exact ⟨_, rfl, rfl⟩
  · cases n <;> rfl

/-- A full producer view with room behind it: the first edge shows the room; then SYNC_T again and again. -/
def roomRun : Nat → State
  | 0 => { at2 2 1 1 1 [] with ts := [some 0], sched := [.syncT] }
  | _ + 1 => { at2 2 1 1 1 [] with sched := [.syncT] }

theorem roomRun_edge (n : Nat) : step (roomRun (n + 1)) = .next (at2 2 1 1 1 []) :=
  goesOn_eq (show goesOn (step { at2 2 1 1 1 [] with sched := [.syncT] })
    (· == at2 2 1 1 1 []) = true by decide)

theorem test_meets_fairSyncT : IsRun roomRun ∧ FairSyncT roomRun ∧ (roomRun 0).wf = true ∧
    (roomRun 0).ringOrdered = true ∧ 1 ≤ (roomRun 0).cfg.S ∧ (roomRun 0).head = some 1 ∧
    (roomRun 0).tail = some 1 ∧ fullFlag (roomRun 0).cfg.C 1 1 = false := by
  refine ⟨fun n => ?_, fun n _ => ⟨n, Nat.le_refl n, ?_⟩, rfl, rfl, by decide, rfl, rfl, rfl⟩
  · cases n with
    | zero => exact ⟨_, rfl, rfl⟩
    | succ n => exact ⟨_, roomRun_edge n, rfl⟩
  · cases n <;> rfl

/-- T86 from its EMIT on: the edge that arms, the DRAIN, the device, the DRAIN that disarms; then SYNC_H. -/
def deliveringRun : Nat → State
  | 0 => { at2 2 1 1 0 [(0, 0x41#8)] with
      hs := [some 0], trace := [.init, .put 0x41#8], sched := [.syncH] }
  | 1 => { at2 2 1 1 0 [(0, 0x41#8)] with
      armed := true, trace := [.init, .put 0x41#8, .arm], sched := [.drain] }
  | 2 => { at2 2 1 1 1 [(0, 0x41#8)] with
      ts := [some 0], armed := true, txfree := false, txreg := some 0x41#8, issuer := .c
      resp := some 0x141#9, sched := [.txDone]
      trace := [.init, .put 0x41#8, .arm, .get 0x41#8, .txWrite 0x41#8] }
  | 3 => { at2 2 1 1 1 [(0, 0x41#8)] with
      ts := [some 0], armed := true, txreg := some 0x41#8, issuer := .c, line := [0x41#8]
      resp := some 0x141#9, sched := [.drain]
      trace := [.init, .put 0x41#8, .arm, .get 0x41#8, .txWrite 0x41#8] }
  | _ + 4 => { at2 2 1 1 1 [(0, 0x41#8)] with
      ts := [some 0], txreg := some 0x41#8, issuer := .c, line := [0x41#8]
      resp := some 0x000#9, sched := [.syncH]
      trace := [.init, .put 0x41#8, .arm, .get 0x41#8, .txWrite 0x41#8, .disarm] }

theorem deliveringRun_edge (n : Nat) :
    step (deliveringRun (n + 4)) = .next { deliveringRun 4 with sched := [] } :=
  goesOn_eq (show goesOn (step (deliveringRun 4)) (· == { deliveringRun 4 with sched := [] }) = true by
    decide)

theorem deliveringRun_run : IsRun deliveringRun := fun n =>
  match n with
  | 0 => ⟨_, rfl, rfl⟩
  | 1 => ⟨_, rfl, rfl⟩
  | 2 => ⟨_, rfl, rfl⟩
  | 3 => ⟨_, rfl, rfl⟩
  | n + 4 => ⟨_, deliveringRun_edge n, rfl⟩

theorem deliveringRun_driver : ∀ m, (deliveringRun m).keepsToDriver := fun m i h =>
  match m with
  | 0 => by cases h
  | 1 => by cases h; simp
  | 2 => by cases h
  | 3 => by cases h; simp
  | _ + 4 => by cases h

theorem test_meets_fairDelivery : IsRun deliveringRun ∧ FairDrain deliveringRun ∧
    FairTxDone deliveringRun ∧ FairSyncH deliveringRun ∧ (deliveringRun 0).wf = true ∧
    (deliveringRun 0).ringOrdered = true ∧ (deliveringRun 0).fifo ∧ (deliveringRun 0).armedForBytes ∧
    (deliveringRun 0).gie = true ∧ (∀ m, 0 ≤ m → (deliveringRun m).keepsToDriver) ∧
    (deliveringRun 0).queue = [some 0x41#8] := by
  refine ⟨deliveringRun_run, fun n h => ?_, fun n h => ?_, fun n _ => ⟨n + 4, by omega, rfl⟩, rfl, rfl,
    fun _ => rfl, fun h t hv hne => ?_, rfl, fun m _ => deliveringRun_driver m, rfl⟩
  · exact absurd (h (n + 4) (by omega)) Bool.false_ne_true
  · exact absurd (h (n + 4) (by omega)) (fun e => Bool.noConfusion e)
  · injection hv with hv
    injection hv with h1 h2
    exact absurd (h1.symm.trans h2) hne

end Sys2Proof.Tests
end

section
/-! SUPPORT. What the settled turns and the ring's occupancy come to, and from it the statements on who steps
(spec/00_scope.md R13) and on the flags and the queue (spec/10_state.md R27). -/

namespace Sys2Proof.Machine

/-! ### Occupancy -/

/-- Going `dist` slots on from one cursor value leads to the other. -/
theorem add_dist_mod {C a b : Nat} (ha : a < C) (hb : b < C) : (a + dist C a b) % C = b := by
  rw [dist_eq ha hb]
  split
  · rw [show a + (b - a) = b by omega, Nat.mod_eq_of_lt hb]
  · rw [show a + (b + C - a) = b + C by omega, Nat.add_mod_right, Nat.mod_eq_of_lt hb]

theorem emptyFlag_iff_dist {C h t : Nat} (hh : h < C) (ht : t < C) :
    emptyFlag h t = true ↔ dist C t h = 0 := by
  rw [emptyFlag_iff, dist_eq_zero ht hh, eq_comm]

theorem fullFlag_iff_dist {C h t : Nat} (hh : h < C) (ht : t < C) :
    fullFlag C h t = true ↔ dist C t h = C - 1 := by
  rw [fullFlag_iff, inc_eq hh, dist_eq ht hh]
  split_ifs <;> omega

@[simp] theorem slotsFrom_length (C : Nat) (m : Memory) (t n : Nat) :
    (slotsFrom C m t n).length = n := by
  simp [slotsFrom]

theorem slotsFrom_getElem? {C t n k : Nat} (m : Memory) (hk : k < n) :
    (slotsFrom C m t n)[k]? = some (Memory.read m ((t + k) % C)) := by
  simp [slotsFrom, hk]

theorem State.queue_eq {s : State} {h t : Nat} (hh : s.head = some h) (ht : s.tail = some t) :
    s.queue = slotsFrom s.cfg.C s.storage t (dist s.cfg.C t h) := by
  simp only [State.queue, hh, ht]

/-- Settles O15: the flags through `dist` as a compare and wrap, the queue through `slotsFrom`. -/
theorem flagsFollowOccupancy : Obligations.FlagsFollowOccupancy := by
  refine ⟨fun C h t hh ht => ?_, fun s h t hh ht => ?_⟩
  · have hlt : dist C t h < C := dist_lt hh
    have hempty := emptyFlag_iff_dist hh ht
    have hfull := fullFlag_iff_dist hh ht
    refine ⟨by omega, hempty, hfull, fun hC ⟨he, hf⟩ => ?_, add_dist_mod ht hh⟩
    have h0 := hempty.mp he
    have hC1 := hfull.mp hf
    omega
  · rw [State.queue_eq hh ht]
    exact ⟨slotsFrom_length .., fun k hk => slotsFrom_getElem? _ hk⟩

/-! ### Turns -/

theorem State.holds_iff {s : State} {port : Port} {i : Instr} :
    s.holds port i = true ↔ port = .c ∧ i = .drain ∧ s.drainEnabled = false := by
  simp only [State.holds, Bool.and_eq_true, decide_eq_true_eq, Bool.not_eq_true']
  tauto

theorem State.drainEnabled_iff {s : State} :
    s.drainEnabled = true ↔ s.armed = true ∧ s.txfree = true ∧ s.gie = true := by
  simp only [State.drainEnabled, State.drainPending, Bool.and_eq_true, and_assoc]

/-- A word that is not reserved is held, or else performed on its port. -/
theorem State.issueWord_eq {s taken : State} {port : Port} {w : CmdWord} {i : Instr}
    (hw : decode w = .ok i) :
    s.issueWord port w taken =
      if s.holds port i then .next s else exec i (taken.issueOn port) := by
  simp only [State.issueWord, hw]

theorem State.producerTurn_nil {s : State} (hq : s.pq = []) : s.producerTurn = .next s := by
  simp only [State.producerTurn, hq]

/-- No word is ever held on the P port. -/
theorem State.producerTurn_word {s : State} {w : CmdWord} {i : Instr} {rest : List Request}
    (hq : s.pq = .word w :: rest) (hw : decode w = .ok i) :
    s.producerTurn = exec i ((s.setPq rest).issueOn .p) := by
  have hfree : ¬ s.holds .p i = true := fun hh => Port.noConfusion (State.holds_iff.mp hh).1
  simp only [State.producerTurn, hq]
  rw [State.issueWord_eq hw, if_neg hfree]

theorem State.consumerTurn_nil {s : State} (hq : s.cq = []) : s.consumerTurn = .next s := by
  simp only [State.consumerTurn, hq]

theorem State.consumerTurn_word {s : State} {w : CmdWord} {i : Instr} {rest : List CmdWord}
    (hq : s.cq = w :: rest) (hw : decode w = .ok i) :
    s.consumerTurn = if i = .drain ∧ s.drainEnabled = false then .next s
      else exec i ((s.setCq rest).issueOn .c) := by
  have hheld : s.holds .c i = true ↔ i = .drain ∧ s.drainEnabled = false := by
    simp [State.holds_iff]
  simp only [State.consumerTurn, hq]
  rw [State.issueWord_eq hw]
  simp only [hheld]

theorem State.drainTurn_eq (s : State) :
    s.drainTurn = if s.armed = true ∧ s.txfree = true ∧ s.gie = true
      then exec .drain s.enterHandler else .next s := by
  simp only [State.drainTurn, State.drainEnabled_iff]

/-- SYNC_H does nothing while it is not enabled (R136; log 7). -/
theorem syncH_disabled {s : State} (h : s.cfg.S = 0 ∨ s.head = none ∨ s.tail = none) :
    syncH s = .next s := by
  unfold syncH
  split
  next hh ht =>
    have hS : s.cfg.S = 0 := by simpa [hh, ht] using h
    exact if_pos hS
  next => rfl

/-- SYNC_T does nothing while it is not enabled (R137; log 7). -/
theorem syncT_disabled {s : State} (h : s.cfg.S = 0 ∨ s.head = none ∨ s.tail = none) :
    syncT s = .next s := by
  unfold syncT
  split
  next hh ht =>
    have hS : s.cfg.S = 0 := by simpa [hh, ht] using h
    exact if_pos hS
  next => rfl

/-- A step past the settled schedule is the turn that the free value gives (R232; log 5). -/
theorem step_free {s : State} (hc : validInstance s.cfg = true) (h : s.sched = []) :
    step s = State.runTurn { s with tick := s.tick + 1 } (Config.freeTurn s.tick) := by
  have hadv : s.advance = { s with tick := s.tick + 1 } := by
    simp only [State.advance, State.setSched, h]
  have hturn : s.turn = Config.freeTurn s.tick := by simp only [State.turn, h]
  unfold step State.takeStep
  rw [if_pos hc, hadv, hturn]

/-! ### The statements on the step -/

/-- Settles O5: the settled turn is the producer's, and the P port holds no word. -/
theorem stepRunsTheProducersWord : Obligations.StepRunsTheProducersWord := by
  intro s w i rest turns hc hsched hq hw
  rw [step_settled hc hsched]
  exact State.producerTurn_word (s := { s with sched := turns }) hq hw

/-- Settles O6: the settled turn is the C port's, which holds exactly a DRAIN that is not enabled. -/
theorem stepRunsTheConsumersWord : Obligations.StepRunsTheConsumersWord := by
  intro s w i rest turns hc hsched hq hw
  rw [step_settled hc hsched]
  exact State.consumerTurn_word (s := { s with sched := turns }) hq hw

/-- Settles O7: one clause for each turn, and each turn with nothing enabled. -/
theorem stepTakesTheUnencodedTurns : Obligations.StepTakesTheUnencodedTurns := by
  intro s turns hc
  refine ⟨fun h => ?_, step_settled hc, step_settled hc, step_settled hc, step_free hc, ?_⟩
  · rw [step_settled hc h]
    exact State.drainTurn_eq _
  · rintro (⟨h, hq⟩ | ⟨h, hq⟩ | ⟨h | h, hoff⟩) <;> rw [step_settled hc h]
    · exact State.producerTurn_nil hq
    · exact State.consumerTurn_nil hq
    · exact syncH_disabled hoff
    · exact syncT_disabled hoff

end Sys2Proof.Machine
end

section
/-! SUPPORT. The pointer code's round trip (spec/42_cdc_sync.md R132, R133): `g2b` inverts `b2g`, and `dec`
inverts `enc` on the cursors. -/

namespace Sys2Proof.Machine

theorem b2g_shiftRight (x j : Nat) : b2g x >>> j = (x >>> j) ^^^ (x >>> (j + 1)) := by
  rw [b2g, Nat.shiftRight_xor_distrib, ← Nat.shiftRight_add, Nat.add_comm 1 j]

/-- From the bits of `x` at `j` and above, the inverse gets the rest of `x`: each xor cancels the bit above. -/
theorem g2bFrom_b2g (x j : Nat) : g2bFrom (b2g x) j (x >>> j) = x := by
  induction j with
  | zero => rfl
  | succ j ih =>
    have hbit : x >>> (j + 1) ^^^ b2g x >>> j = x >>> j := by
      rw [b2g_shiftRight, Nat.xor_comm (x >>> j), ← Nat.xor_assoc, Nat.xor_self, Nat.zero_xor]
    have hbits : 2 * (x >>> (j + 1)) + (x >>> j) % 2 = x >>> j := by
      rw [Nat.shiftRight_succ]; omega
    rw [g2bFrom, hbit, hbits, ih]

theorem g2b_b2g {w x : Nat} (hx : x < 2 ^ w) : g2b w (b2g x) = x := by
  have htop : x >>> w = 0 := by rw [Nat.shiftRight_eq_div_pow, Nat.div_eq_of_lt hx]
  have hfrom := g2bFrom_b2g x w
  rwa [htop] at hfrom

theorem b2g_lt {w x : Nat} (hx : x < 2 ^ w) : b2g x < 2 ^ w :=
  Nat.xor_lt_two_pow hx (lt_of_le_of_lt (Nat.shiftRight_le x 1) hx)

/-- Every cursor value fits in PW bits (R8). -/
theorem le_two_pow_cursorBits (C : Nat) : C ≤ 2 ^ cursorBits C := by
  unfold cursorBits
  split
  · omega
  · have hlog : C - 1 < 2 ^ (Nat.log2 (C - 1) + 1) := Nat.lt_log2_self
    omega

theorem add_codeOffset_lt {C i : Nat} (hi : i < C) : i + codeOffset C < 2 ^ cursorBits C := by
  have hC := le_two_pow_cursorBits C
  unfold codeOffset
  omega

theorem enc_lt {C i : Nat} (hi : i < C) : enc C i < 2 ^ cursorBits C := b2g_lt (add_codeOffset_lt hi)

/-- `dec` inverts `enc` on every cursor value, for an odd `C` too. -/
theorem dec_enc {C i : Nat} (hi : i < C) : dec C (enc C i) = some i := by
  have hword : g2b (cursorBits C) (enc C i) = i + codeOffset C := g2b_b2g (add_codeOffset_lt hi)
  have hrange : codeOffset C ≤ i + codeOffset C ∧ i + codeOffset C < codeOffset C + C := by omega
  simp only [dec, hword]
  rw [if_pos ⟨enc_lt hi, hrange⟩, Nat.add_sub_cancel]

/-- A code word stands for a cursor value. -/
theorem dec_lt {C g v : Nat} (hg : dec C g = some v) : v < C := by
  simp only [dec] at hg
  split at hg
  · injection hg
    omega
  · cases hg

end Sys2Proof.Machine
end

section
/-! SUPPORT. The well-formed states (spec/10_state.md R24, spec/42_cdc_sync.md R142): the parts of `State.wf` one
by one, the views in a well-formed state, and one rule per update of the state that says when it keeps `wf`. -/

namespace Sys2Proof.Machine

/-! ### INIT's update, field by field -/

@[simp] theorem State.ringInit_cfg (s : State) : s.ringInit.cfg = s.cfg := rfl
@[simp] theorem State.ringInit_storage (s : State) : s.ringInit.storage = s.storage := rfl
@[simp] theorem State.ringInit_head (s : State) : s.ringInit.head = some 0 := rfl
@[simp] theorem State.ringInit_tail (s : State) : s.ringInit.tail = some 0 := rfl
@[simp] theorem State.ringInit_armed (s : State) : s.ringInit.armed = s.armed := rfl
@[simp] theorem State.ringInit_txfree (s : State) : s.ringInit.txfree = s.txfree := rfl
@[simp] theorem State.ringInit_txreg (s : State) : s.ringInit.txreg = s.txreg := rfl
@[simp] theorem State.ringInit_gie (s : State) : s.ringInit.gie = s.gie := rfl
@[simp] theorem State.ringInit_line (s : State) : s.ringInit.line = s.line := rfl
@[simp] theorem State.ringInit_trace (s : State) : s.ringInit.trace = s.trace ++ [.init] := rfl
@[simp] theorem State.ringInit_hs (s : State) :
    s.ringInit.hs = List.replicate s.cfg.S (some (enc s.cfg.C 0)) := rfl
@[simp] theorem State.ringInit_ts (s : State) :
    s.ringInit.ts = List.replicate s.cfg.S (some (enc s.cfg.C 0)) := rfl

/-! ### The parts of `State.wf` -/

theorem State.wf_iff {s : State} :
    s.wf = true ↔ validInstance s.cfg = true ∧
      (Memory.wf s.storage = true ∧ Memory.within s.cfg.C s.storage = true) ∧ s.cursorsOk = true ∧
      (s.chainOk s.hs = true ∧ s.chainOk s.ts = true) ∧
      (s.txfree = true ∨ s.txreg.isSome = true) := by
  simp only [State.wf, Bool.and_eq_true, Bool.or_eq_true, and_assoc]

theorem validInstance_pos {c : Config} (hc : validInstance c = true) : 0 < c.C := by
  simp only [validInstance, Bool.and_eq_true, decide_eq_true_eq] at hc
  exact hc.1

theorem State.cursorsOk_some {s : State} {h t : Nat} (hh : s.head = some h) (ht : s.tail = some t) :
    s.cursorsOk = true ↔ h < s.cfg.C ∧ t < s.cfg.C := by
  simp only [State.cursorsOk, hh, ht, Bool.and_eq_true, decide_eq_true_eq]

/-- In a well-formed state `tail` has a value when `head` has one, and both are cursor values. -/
theorem State.cursors_of_head {s : State} {h : Nat} (hs : s.cursorsOk = true) (hh : s.head = some h) :
    h < s.cfg.C ∧ ∃ t, s.tail = some t ∧ t < s.cfg.C := by
  cases ht : s.tail with
  | none => simp [State.cursorsOk, hh, ht] at hs
  | some t =>
    obtain ⟨hlt, htl⟩ := (State.cursorsOk_some hh ht).mp hs
    exact ⟨hlt, t, rfl, htl⟩

/-- Once `head` has a value a synchroniser is S code words. -/
theorem State.chainOk_some {s : State} {h : Nat} (hh : s.head = some h) {chain : List (Option Nat)} :
    s.chainOk chain = true ↔ chain.length = s.cfg.S ∧
      ∀ stage ∈ chain, ∃ g v, stage = some g ∧ dec s.cfg.C g = some v := by
  simp only [State.chainOk, Bool.and_eq_true, beq_iff_eq, List.all_eq_true]
  refine and_congr_right fun _ => forall₂_congr fun stage _ => ?_
  cases stage with
  | none => simp [hh]
  | some g => simp [hh, Option.isSome_iff_exists]

/-- A synchroniser's part of `wf` asks of `head` only whether it has a value. -/
theorem State.chainOk_congr {s s' : State} (hc : s'.cfg = s.cfg)
    (hh : s'.head.isSome = s.head.isSome) (chain : List (Option Nat)) :
    s'.chainOk chain = s.chainOk chain := by
  have hn : s'.head.isNone = s.head.isNone := by
    rw [← Option.not_isSome, ← Option.not_isSome, hh]
  simp only [State.chainOk, hc, hh, hn]

theorem State.chainOk_replicate {s : State} {h i : Nat} (hh : s.head = some h) (hi : i < s.cfg.C) :
    s.chainOk (List.replicate s.cfg.S (some (enc s.cfg.C i))) = true := by
  refine (State.chainOk_some hh).mpr ⟨List.length_replicate, fun stage hmem => ?_⟩
  exact ⟨_, i, List.eq_of_mem_replicate hmem, dec_enc hi⟩

/-- An edge that samples a cursor value keeps a synchroniser's part of `wf`. -/
theorem State.chainOk_shiftIn {s : State} {h i : Nat} {chain : List (Option Nat)}
    (hh : s.head = some h) (hi : i < s.cfg.C) (hok : s.chainOk chain = true) :
    s.chainOk (shiftIn (enc s.cfg.C i) chain) = true := by
  obtain ⟨hlen, hall⟩ := (State.chainOk_some hh).mp hok
  refine (State.chainOk_some hh).mpr ⟨by simp [shiftIn, hlen], fun stage hmem => ?_⟩
  rcases List.mem_cons.mp (List.dropLast_subset _ hmem) with rfl | hmem
  · exact ⟨_, i, rfl, dec_enc hi⟩
  · exact hall stage hmem

/-! ### The views -/

theorem seenThrough_concat {C g v : Nat} (l : List (Option Nat)) (hg : dec C g = some v) :
    seenThrough C (l ++ [some g]) = .ok v := by
  simp only [seenThrough, List.getLast?_concat, hg]

/-- A synchroniser of a well-formed state shows a cursor value. -/
theorem State.seenThrough_of_chainOk {s : State} {h : Nat} {chain : List (Option Nat)}
    (hh : s.head = some h) (hS : s.cfg.S ≠ 0) (hok : s.chainOk chain = true) :
    ∃ v, seenThrough s.cfg.C chain = .ok v ∧ v < s.cfg.C := by
  obtain ⟨hlen, hall⟩ := (State.chainOk_some hh).mp hok
  have hne : chain ≠ [] := by
    rintro rfl
    exact hS hlen.symm
  obtain ⟨g, v, hg, hv⟩ := hall _ (List.getLast_mem hne)
  refine ⟨v, ?_, dec_lt hv⟩
  rw [← List.dropLast_append_getLast hne, hg, seenThrough_concat _ hv]

theorem State.view_p_seen {s : State} {h t v : Nat} (hh : s.head = some h) (ht : s.tail = some t)
    (hS : s.cfg.S ≠ 0) (hv : seenThrough s.cfg.C s.ts = .ok v) : s.view .p = .ok (h, v) := by
  simp only [State.view, hh, ht, if_neg hS, hv]

theorem State.view_c_seen {s : State} {h t v : Nat} (hh : s.head = some h) (ht : s.tail = some t)
    (hS : s.cfg.S ≠ 0) (hv : seenThrough s.cfg.C s.hs = .ok v) : s.view .c = .ok (v, t) := by
  simp only [State.view, hh, ht, if_neg hS, hv]

/-- Without synchronisers only the cursors are seen. -/
theorem State.cursors_of_view {s : State} {port : Port} {h t : Nat} (hS : s.cfg.S = 0)
    (hv : s.view port = .ok (h, t)) : s.head = some h ∧ s.tail = some t := by
  obtain ⟨h₀, t₀, hh, ht, ⟨-, rfl, rfl⟩ | ⟨hS', -⟩ | ⟨hS', -⟩⟩ := State.view_ok hv
  · exact ⟨hh, ht⟩
  · exact absurd hS hS'
  · exact absurd hS hS'

/-- A view needs both cursors. -/
theorem State.head_of_view {s : State} {port : Port} {h t : Nat} (hv : s.view port = .ok (h, t)) :
    ∃ h₀, s.head = some h₀ := by
  obtain ⟨h₀, -, hh, -⟩ := State.view_ok hv
  exact ⟨h₀, hh⟩

/-! ### What keeps a state well formed -/

@[simp] theorem State.wf_respond (s : State) (r : RespWord) : (s.respond r).wf = s.wf := rfl
@[simp] theorem State.wf_logEvent (s : State) (e : Event) : (s.logEvent e).wf = s.wf := rfl
@[simp] theorem State.wf_setGie (s : State) (b : Bool) : (s.setGie b).wf = s.wf := rfl
@[simp] theorem State.wf_configure (s : State) (d : Int) (f : FrameFormat) :
    (s.configure d f).wf = s.wf := rfl
@[simp] theorem State.wf_enableTransmitter (s : State) : s.enableTransmitter.wf = s.wf := rfl

theorem State.wf_of_sameBlock {s s' : State} (hsame : s.sameBlock s') : s'.wf = s.wf := by
  rw [show s' = _ from hsame]
  rfl

theorem State.wf_ringInit {s : State} (hs : s.wf = true) : s.ringInit.wf = true := by
  obtain ⟨hc, hm, -, -, htx⟩ := State.wf_iff.mp hs
  have h0 : 0 < s.cfg.C := validInstance_pos hc
  have hcur : s.ringInit.cursorsOk = true :=
    (State.cursorsOk_some (s := s.ringInit) rfl rfl).mpr ⟨h0, h0⟩
  have hch : s.ringInit.chainOk (List.replicate s.cfg.S (some (enc s.cfg.C 0))) = true :=
    State.chainOk_replicate (s := s.ringInit) rfl h0
  exact State.wf_iff.mpr ⟨hc, hm, hcur, ⟨hch, hch⟩, htx⟩

theorem State.wf_setStorage {s : State} {m : Memory} (hs : s.wf = true) (hm : Memory.wf m = true)
    (hin : Memory.within s.cfg.C m = true) : (s.setStorage m).wf = true := by
  obtain ⟨hc, -, hcur, hch, htx⟩ := State.wf_iff.mp hs
  exact State.wf_iff.mpr ⟨hc, ⟨hm, hin⟩, hcur, hch, htx⟩

theorem State.wf_setHead {s : State} {h₀ h : Nat} (hs : s.wf = true) (hh : s.head = some h₀)
    (hlt : h < s.cfg.C) : (s.setHead h).wf = true := by
  obtain ⟨hc, hm, hcur, ⟨hhs, hts⟩, htx⟩ := State.wf_iff.mp hs
  obtain ⟨-, t, ht, htl⟩ := State.cursors_of_head hcur hh
  have hcur' : (s.setHead h).cursorsOk = true :=
    (State.cursorsOk_some (s := s.setHead h) rfl ht).mpr ⟨hlt, htl⟩
  have hch := State.chainOk_congr (s := s) (s' := s.setHead h) rfl (by simp [hh])
  exact State.wf_iff.mpr ⟨hc, hm, hcur', ⟨(hch _).trans hhs, (hch _).trans hts⟩, htx⟩

theorem State.wf_setTail {s : State} {h t : Nat} (hs : s.wf = true) (hh : s.head = some h)
    (hlt : t < s.cfg.C) : (s.setTail t).wf = true := by
  obtain ⟨hc, hm, hcur, hch, htx⟩ := State.wf_iff.mp hs
  have hhl := (State.cursors_of_head hcur hh).1
  have hcur' : (s.setTail t).cursorsOk = true :=
    (State.cursorsOk_some (s := s.setTail t) hh rfl).mpr ⟨hhl, hlt⟩
  exact State.wf_iff.mpr ⟨hc, hm, hcur', hch, htx⟩

/-- Storing a byte at `head` and advancing it (R57). -/
theorem State.wf_store {s : State} {h : Nat} (hs : s.wf = true) (hh : s.head = some h)
    (hlt : h < s.cfg.C) (b : Byte) :
    ((s.setStorage (Memory.write s.storage h b)).setHead (inc s.cfg.C h)).wf = true := by
  obtain ⟨-, ⟨hm, hin⟩, -⟩ := State.wf_iff.mp hs
  have hst := State.wf_setStorage hs (Memory.wf_write _ h b hm) (Memory.within_write _ _ h b hlt hin)
  exact State.wf_setHead hst hh (inc_lt hlt)

/-- With cursors that have values, `armed` is free. -/
theorem State.wf_setArmed {s : State} {h : Nat} (hs : s.wf = true) (hh : s.head = some h) (b : Bool) :
    (s.setArmed b).wf = true := by
  obtain ⟨hc, hm, hcur, hch, htx⟩ := State.wf_iff.mp hs
  obtain ⟨hhl, t, ht, htl⟩ := State.cursors_of_head hcur hh
  have hcur' : (s.setArmed b).cursorsOk = true :=
    (State.cursorsOk_some (s := s.setArmed b) hh ht).mpr ⟨hhl, htl⟩
  exact State.wf_iff.mpr ⟨hc, hm, hcur', hch, htx⟩

theorem State.wf_arm {s : State} {h : Nat} (hs : s.wf = true) (hh : s.head = some h) :
    s.arm.wf = true := State.wf_setArmed hs hh true

theorem State.wf_disarm {s : State} {h : Nat} (hs : s.wf = true) (hh : s.head = some h) :
    s.disarm.wf = true := State.wf_setArmed hs hh false

theorem State.wf_writeOutputRegister {s : State} (hs : s.wf = true) (b : Byte) :
    (s.writeOutputRegister b).wf = true := by
  obtain ⟨hc, hm, hcur, hch, -⟩ := State.wf_iff.mp hs
  exact State.wf_iff.mpr ⟨hc, hm, hcur, hch, .inr rfl⟩

theorem State.wf_finishByte {s : State} (hs : s.wf = true) (b : Byte) :
    (s.finishByte b).wf = true := by
  obtain ⟨hc, hm, hcur, hch, -⟩ := State.wf_iff.mp hs
  exact State.wf_iff.mpr ⟨hc, hm, hcur, hch, .inl rfl⟩

theorem State.wf_setHs {s : State} {chain : List (Option Nat)} (hs : s.wf = true)
    (hok : s.chainOk chain = true) : (s.setHs chain).wf = true := by
  obtain ⟨hc, hm, hcur, ⟨-, hts⟩, htx⟩ := State.wf_iff.mp hs
  exact State.wf_iff.mpr ⟨hc, hm, hcur, ⟨hok, hts⟩, htx⟩

theorem State.wf_setTs {s : State} {chain : List (Option Nat)} (hs : s.wf = true)
    (hok : s.chainOk chain = true) : (s.setTs chain).wf = true := by
  obtain ⟨hc, hm, hcur, ⟨hhs, -⟩, htx⟩ := State.wf_iff.mp hs
  exact State.wf_iff.mpr ⟨hc, hm, hcur, ⟨hhs, hok⟩, htx⟩

/-! ### The steps keep a state well formed -/

/-- Every command keeps a state well formed. -/
theorem exec_keeps_wf {s s' : State} {i : Instr} (hs : s.wf = true) (hx : exec i s = .next s') :
    s'.wf = true := by
  cases i with
  | init =>
    obtain ⟨-, rfl⟩ := exec_init_next hx
    rw [State.wf_respond]
    exact State.wf_ringInit hs
  | begin n =>
    obtain ⟨-, -, rfl⟩ := exec_begin_next hx
    rw [State.wf_respond]
    exact State.wf_ringInit (by simpa using hs)
  | isEmpty =>
    obtain ⟨r, rfl⟩ := exec_isEmpty_next hx
    exact hs
  | isFull =>
    obtain ⟨r, rfl⟩ := exec_isFull_next hx
    exact hs
  | put b =>
    obtain ⟨-, h, t, hv, ⟨-, rfl⟩ | ⟨-, hlt, rfl⟩⟩ := exec_put_next hx
    · exact hs
    · simpa using State.wf_store hs (State.view_p_head hv) hlt b
  | get =>
    obtain ⟨-, h, t, hv, ⟨-, rfl⟩ | ⟨-, hlt, b, -, rfl⟩⟩ := exec_get_next hx
    · exact hs
    · obtain ⟨h₀, hh⟩ := State.head_of_view hv
      simpa using State.wf_setTail hs hh (inc_lt hlt)
  | emit b =>
    obtain ⟨-, h, t, u, hv, hu, rfl⟩ := exec_emit_next hx
    have hh : s.head = some h := State.view_p_head hv
    have hwf : u.wf = true ∧ ∃ h', u.head = some h' := by
      obtain ⟨-, rfl⟩ | ⟨-, hlt, rfl⟩ := hu
      · exact ⟨hs, h, hh⟩
      · exact ⟨State.wf_store (s := s.setGie false) hs hh hlt b, _, rfl⟩
    obtain ⟨hu, h', hh'⟩ := hwf
    rw [State.wf_respond, State.wf_setGie]
    split
    · exact State.wf_arm hu hh'
    · exact hu
  | drain =>
    obtain ⟨-, ⟨-, rfl⟩ | ⟨-, h, t, hv, hcase⟩⟩ := exec_drain_next hx
    · exact hs
    · obtain ⟨h₀, hh⟩ := State.head_of_view hv
      obtain ⟨-, rfl⟩ | ⟨-, hlt, b, -, rfl⟩ := hcase
      · simpa using State.wf_disarm hs hh
      · have htake := State.wf_setTail hs hh (inc_lt hlt)
        rw [State.wf_respond]
        exact State.wf_writeOutputRegister (by simpa using htake) b

theorem txDone_keeps_wf {s s' : State} (hs : s.wf = true) (hx : txDone s = .next s') :
    s'.wf = true := by
  obtain ⟨-, rfl⟩ | ⟨-, b, -, rfl⟩ := txDone_next hx
  · exact hs
  · exact State.wf_finishByte hs b

theorem syncH_keeps_wf {s s' : State} (hs : s.wf = true) (hx : syncH s = .next s') :
    s'.wf = true := by
  obtain ⟨-, rfl⟩ | ⟨h, t, old, new, -, hh, -, -, -, rfl⟩ := syncH_next hx
  · exact hs
  · obtain ⟨-, -, hcur, ⟨hhs, -⟩, -⟩ := State.wf_iff.mp hs
    have hlt := (State.cursors_of_head hcur hh).1
    have hset := State.wf_setHs hs (State.chainOk_shiftIn hh hlt hhs)
    split
    · exact State.wf_arm hset hh
    · exact hset

theorem syncT_keeps_wf {s s' : State} (hs : s.wf = true) (hx : syncT s = .next s') :
    s'.wf = true := by
  obtain ⟨-, rfl⟩ | ⟨h, t, -, hh, ht, rfl⟩ := syncT_next hx
  · exact hs
  · obtain ⟨-, -, hcur, ⟨-, hts⟩, -⟩ := State.wf_iff.mp hs
    have hlt := ((State.cursorsOk_some hh ht).mp hcur).2
    exact State.wf_setTs hs (State.chainOk_shiftIn hh hlt hts)

/-- Settles O39: every command, TX_DONE and every synchroniser edge keeps `State.wf`. -/
theorem stepKeepsWellFormed : Obligations.StepKeepsWellFormed := by
  intro s s' hs hx
  exact step_keeps (fun u => u.wf = true) (fun _ _ hsame hw => (State.wf_of_sameBlock hsame).trans hw)
    (fun _ _ _ => exec_keeps_wf) (fun _ _ => txDone_keeps_wf) (fun _ _ => syncH_keeps_wf)
    (fun _ _ => syncT_keeps_wf) hs hx

end Sys2Proof.Machine
end

section
/-! SUPPORT. Power-on meets the invariants (spec/10_state.md R38), and what the two sides see (R30,
spec/42_cdc_sync.md R138). -/

namespace Sys2Proof.Machine

/-! ### Power-on -/

theorem State.powerOn_chainOk (c : Config) :
    (State.powerOn c).chainOk (List.replicate c.S none) = true := by
  simp [State.chainOk, State.powerOn]

theorem State.powerOn_wf {c : Config} (hc : validInstance c = true) : (State.powerOn c).wf = true := by
  have hch := State.powerOn_chainOk c
  exact State.wf_iff.mpr ⟨hc, ⟨rfl, rfl⟩, rfl, ⟨hch, hch⟩, .inl rfl⟩

/-- Settles O13: at power-on no cursor has a value, no event has happened and the register is free. -/
theorem powerOnMeetsTheInvariants : Obligations.PowerOnMeetsTheInvariants := by
  refine ⟨fun c hc => ⟨State.powerOn_wf hc, rfl, ?_, rfl⟩, State.powerOn_wf rfl⟩
  intro hh
  cases hh

/-! ### The views -/

/-- Settles O14: without stages the cursors themselves, with them the word of the output stage, which a
well-formed state has. -/
theorem viewsOfTheTwoSides : Obligations.ViewsOfTheTwoSides := by
  intro s h t hh ht
  refine ⟨State.view_exact hh ht, fun hS l g v hts hg => ?_, fun hS l g v hhs hg => ?_, fun hs => ?_⟩
  · have hseen : seenThrough s.cfg.C s.ts = .ok v := hts ▸ seenThrough_concat l hg
    exact State.view_p_seen hh ht (by omega) hseen
  · have hseen : seenThrough s.cfg.C s.hs = .ok v := hhs ▸ seenThrough_concat l hg
    exact State.view_c_seen hh ht (by omega) hseen
  · obtain ⟨-, -, hcur, ⟨hhs, hts⟩, -⟩ := State.wf_iff.mp hs
    obtain ⟨hhl, htl⟩ := (State.cursorsOk_some hh ht).mp hcur
    by_cases hS : s.cfg.S = 0
    · have hview := State.view_exact hh ht hS
      exact ⟨h, t, hview .p, hview .c, hhl, htl, hhl, htl⟩
    · obtain ⟨h', hseenH, hhl'⟩ := State.seenThrough_of_chainOk hh hS hhs
      obtain ⟨t', hseenT, htl'⟩ := State.seenThrough_of_chainOk hh hS hts
      exact ⟨h', t', State.view_p_seen hh ht hS hseenT, State.view_c_seen hh ht hS hseenH,
        hhl, htl, hhl', htl'⟩

end Sys2Proof.Machine
end

section
/-! SUPPORT. Who writes which field (spec/10_state.md R28, R32 to R35): what a command does to the constants, to
`armed`, to the cursors and to the device, said once for each, and the statements that follow. -/

namespace Sys2Proof.Machine

/-! ### The device's steps and the edges -/

/-- SYNC_T writes the tail synchroniser only (R137). -/
theorem syncT_frame {s s' : State} (hx : syncT s = .next s') : s' = s.setTs s'.ts := by
  obtain ⟨-, rfl⟩ | ⟨h, t, -, -, -, rfl⟩ := syncT_next hx <;> rfl

/-- SYNC_H writes the head synchroniser, and may arm (R136). -/
theorem syncH_frame {s s' : State} (hx : syncH s = .next s') :
    s' = s.setHs s'.hs ∨ s' = (s.setHs s'.hs).arm := by
  obtain ⟨-, rfl⟩ | ⟨h, t, old, new, -, -, -, -, -, rfl⟩ := syncH_next hx
  · exact .inl rfl
  · split
    · exact .inr rfl
    · exact .inl rfl

/-! ### What no command changes -/

/-- No command writes the parameters or the wire, and EMIT's critical section restores `gie` (R113). -/
theorem exec_constants {s s' : State} {i : Instr} (hx : exec i s = .next s') :
    s'.gie = s.gie ∧ s'.cfg = s.cfg ∧ s'.line = s.line := by
  cases i with
  | init =>
    obtain ⟨-, rfl⟩ := exec_init_next hx
    exact ⟨rfl, rfl, rfl⟩
  | begin n =>
    obtain ⟨-, -, rfl⟩ := exec_begin_next hx
    exact ⟨rfl, rfl, rfl⟩
  | isEmpty =>
    obtain ⟨r, rfl⟩ := exec_isEmpty_next hx
    exact ⟨rfl, rfl, rfl⟩
  | isFull =>
    obtain ⟨r, rfl⟩ := exec_isFull_next hx
    exact ⟨rfl, rfl, rfl⟩
  | put b =>
    obtain ⟨-, h, t, -, ⟨-, rfl⟩ | ⟨-, -, rfl⟩⟩ := exec_put_next hx <;> exact ⟨rfl, rfl, rfl⟩
  | get =>
    obtain ⟨-, h, t, -, ⟨-, rfl⟩ | ⟨-, -, b, -, rfl⟩⟩ := exec_get_next hx <;> exact ⟨rfl, rfl, rfl⟩
  | emit b =>
    obtain ⟨-, h, t, u, -, hu, rfl⟩ := exec_emit_next hx
    have hkept : u.cfg = s.cfg ∧ u.line = s.line := by
      obtain ⟨-, rfl⟩ | ⟨-, -, rfl⟩ := hu <;> exact ⟨rfl, rfl⟩
    refine ⟨rfl, ?_⟩
    split <;> exact hkept
  | drain =>
    obtain ⟨-, ⟨-, rfl⟩ | ⟨-, h, t, -, ⟨-, rfl⟩ | ⟨-, -, b, -, rfl⟩⟩⟩ := exec_drain_next hx <;>
      exact ⟨rfl, rfl, rfl⟩

/-- Settles O36: neither a command nor TX_DONE nor an edge writes the parameters or leaves `gie` changed. -/
theorem noStepChangesGieOrTheInstance : Obligations.NoStepChangesGieOrTheInstance := by
  intro s s' hx
  refine step_keeps (fun u => u.gie = s.gie ∧ u.cfg = s.cfg) ?_ ?_ ?_ ?_ ?_ ⟨rfl, rfl⟩ hx
  · intro u u' hsame hu
    rwa [show u' = _ from hsame]
  · rintro u u' i ⟨hgie, hcfg⟩ hx
    obtain ⟨hgie', hcfg', -⟩ := exec_constants hx
    exact ⟨hgie'.trans hgie, hcfg'.trans hcfg⟩
  · intro u u' hu hx
    obtain ⟨-, rfl⟩ | ⟨-, b, -, rfl⟩ := txDone_next hx <;> exact hu
  · intro u u' hu hx
    obtain h | h := syncH_frame hx <;> rw [h] <;> exact hu
  · intro u u' hu hx
    rw [syncT_frame hx]
    exact hu

/-! ### `armed` -/

/-- A command leaves `armed`, or it is an EMIT that sets it on an empty producer view without
synchronisers, or a DRAIN that clears it on an empty consumer view (R32). -/
theorem exec_armed {s s' : State} {i : Instr} (hx : exec i s = .next s') :
    s'.armed = s.armed ∨
      (s'.armed = true ∧ s.cfg.S = 0 ∧ (∃ b, i = .emit b) ∧ ∃ h, s.view .p = .ok (h, h)) ∨
      (s'.armed = false ∧ i = .drain ∧ ∃ h, s.view .c = .ok (h, h)) := by
  cases i with
  | init =>
    obtain ⟨-, rfl⟩ := exec_init_next hx
    exact .inl rfl
  | begin n =>
    obtain ⟨-, -, rfl⟩ := exec_begin_next hx
    exact .inl rfl
  | isEmpty =>
    obtain ⟨r, rfl⟩ := exec_isEmpty_next hx
    exact .inl rfl
  | isFull =>
    obtain ⟨r, rfl⟩ := exec_isFull_next hx
    exact .inl rfl
  | put b =>
    obtain ⟨-, h, t, -, ⟨-, rfl⟩ | ⟨-, -, rfl⟩⟩ := exec_put_next hx <;> exact .inl rfl
  | get =>
    obtain ⟨-, h, t, -, ⟨-, rfl⟩ | ⟨-, -, b, -, rfl⟩⟩ := exec_get_next hx <;> exact .inl rfl
  | emit b =>
    obtain ⟨-, h, t, u, hv, hu, rfl⟩ := exec_emit_next hx
    split
    next hedge =>
      obtain ⟨hS, rfl⟩ := hedge
      exact .inr (.inl ⟨rfl, hS, ⟨b, rfl⟩, h, hv⟩)
    next =>
      obtain ⟨-, rfl⟩ | ⟨-, -, rfl⟩ := hu <;> exact .inl rfl
  | drain =>
    obtain ⟨-, ⟨-, rfl⟩ | ⟨-, h, t, hv, ⟨rfl, rfl⟩ | ⟨-, -, b, -, rfl⟩⟩⟩ := exec_drain_next hx
    · exact .inl rfl
    · exact .inr (.inr ⟨rfl, rfl, h, hv⟩)
    · exact .inl rfl

/-- SYNC_H arms only where the consumer view goes from empty to non-empty (R139). -/
theorem syncH_arms {s s' : State} (hx : syncH s = .next s') (hoff : s.armed = false)
    (hon : s'.armed = true) :
    1 ≤ s.cfg.S ∧ ∃ h t, h ≠ t ∧ s.view .c = .ok (t, t) ∧ s'.view .c = .ok (h, t) := by
  obtain ⟨-, rfl⟩ | ⟨h, t, old, new, hS, hh, ht, hold, hnew, rfl⟩ := syncH_next hx
  · simp [hoff] at hon
  · split at hon
    next hedge =>
      obtain ⟨rfl, hne⟩ := hedge
      refine ⟨by omega, new, old, hne, State.view_c_seen hh ht hS hold, ?_⟩
      rw [if_pos ⟨rfl, hne⟩]
      exact State.view_c_seen (s := (s.setHs (shiftIn (enc s.cfg.C h) s.hs)).arm) hh ht hS hnew
    next => simp [hoff] at hon

/-- Settles O37, from what each command, TX_DONE and each edge does to `armed`. -/
theorem onlyTheEdgesWriteArmed : Obligations.OnlyTheEdgesWriteArmed := by
  refine ⟨fun s s' i hx => ?_, fun s s' hx => ?_, fun s s' hx => ?_,
    fun s s' hx => ⟨fun hon => ?_, syncH_arms hx⟩⟩
  · obtain hsame | ⟨hon, hedge⟩ | ⟨hoff, hedge⟩ := exec_armed hx
    · rw [hsame]
      exact ⟨fun h h' => by simp [h] at h', fun h h' => by simp [h] at h'⟩
    · exact ⟨fun _ _ => hedge, fun _ h' => by simp [hon] at h'⟩
    · exact ⟨fun _ h' => by simp [hoff] at h', fun _ _ => hedge⟩
  · obtain ⟨-, rfl⟩ | ⟨-, b, -, rfl⟩ := txDone_next hx <;> rfl
  · rw [syncT_frame hx, State.setTs_armed]
  · obtain h | h := syncH_frame hx <;> rw [h]
    · exact hon
    · rfl

/-- Settles O46: with `S = 0` the view is the cursors, so EMIT arms where it queues the first byte, and a
DRAIN disarms only an empty queue. -/
theorem bytesQueuedByEmitAreArmed : Obligations.BytesQueuedByEmitAreArmed := by
  intro s s' i _ hS hput hq hx
  have hseen : ∀ {port h t}, s.view port = .ok (h, t) → h ≠ t → s.armed = true := by
    intro port h t hv hne
    obtain ⟨hh, ht⟩ := State.cursors_of_view hS hv
    exact hq (by simpa [hh, ht] using hne)
  cases i with
  | init =>
    obtain ⟨-, rfl⟩ := exec_init_next hx
    exact fun hne => absurd rfl hne
  | begin n =>
    obtain ⟨-, -, rfl⟩ := exec_begin_next hx
    exact fun hne => absurd rfl hne
  | isEmpty =>
    obtain ⟨r, rfl⟩ := exec_isEmpty_next hx
    exact hq
  | isFull =>
    obtain ⟨r, rfl⟩ := exec_isFull_next hx
    exact hq
  | put b => exact absurd rfl (hput b)
  | get =>
    obtain ⟨-, h, t, hv, ⟨-, rfl⟩ | ⟨hne, -, b, -, rfl⟩⟩ := exec_get_next hx
    · exact hq
    · exact fun _ => hseen hv hne
  | emit b =>
    obtain ⟨-, h, t, u, hv, hu, rfl⟩ := exec_emit_next hx
    intro _
    split
    next => rfl
    next hedge =>
      have hne : h ≠ t := fun he => hedge ⟨hS, he⟩
      obtain ⟨-, rfl⟩ | ⟨-, -, rfl⟩ := hu <;> exact hseen hv hne
  | drain =>
    obtain ⟨-, ⟨-, rfl⟩ | ⟨-, h, t, hv, ⟨rfl, rfl⟩ | ⟨hne, -, b, -, rfl⟩⟩⟩ := exec_drain_next hx
    · exact hq
    · obtain ⟨hh, ht⟩ := State.cursors_of_view hS hv
      exact fun hne => absurd (hh.trans ht.symm) hne
    · exact fun _ => hseen hv hne

/-! ### The cursors, storage and the synchronisers -/

/-- A command that goes on was issued on a port that accepts it (R78). -/
theorem exec_accepts {s s' : State} {i : Instr} (hx : exec i s = .next s') :
    accepts i s.issuer = true := by
  cases i <;> exact (State.onPort_next hx).2.1

/-- The C port's commands write nothing of the producer's. -/
theorem exec_c_owns {s s' : State} {i : Instr} (hx : exec i s = .next s') (hc : s.issuer = .c) :
    s'.head = s.head ∧ s'.storage = s.storage ∧ s'.hs = s.hs ∧ s'.ts = s.ts := by
  have hacc : accepts i .c = true := hc ▸ exec_accepts hx
  cases i with
  | init | begin _ | put _ | emit _ => cases hacc
  | isEmpty =>
    obtain ⟨r, rfl⟩ := exec_isEmpty_next hx
    exact ⟨rfl, rfl, rfl, rfl⟩
  | isFull =>
    obtain ⟨r, rfl⟩ := exec_isFull_next hx
    exact ⟨rfl, rfl, rfl, rfl⟩
  | get =>
    obtain ⟨-, h, t, -, ⟨-, rfl⟩ | ⟨-, -, b, -, rfl⟩⟩ := exec_get_next hx <;>
      exact ⟨rfl, rfl, rfl, rfl⟩
  | drain =>
    obtain ⟨-, ⟨-, rfl⟩ | ⟨-, h, t, -, ⟨-, rfl⟩ | ⟨-, -, b, -, rfl⟩⟩⟩ := exec_drain_next hx <;>
      exact ⟨rfl, rfl, rfl, rfl⟩

/-- Of the P port's commands only INIT and BEGIN write `tail`. -/
theorem exec_p_keeps_tail {s s' : State} {i : Instr} (hx : exec i s = .next s') (hp : s.issuer = .p)
    (hinit : i ≠ .init) (hbegin : ∀ n, i ≠ .begin n) : s'.tail = s.tail := by
  have hacc : accepts i .p = true := hp ▸ exec_accepts hx
  cases i with
  | init => exact absurd rfl hinit
  | begin n => exact absurd rfl (hbegin n)
  | get | drain => cases hacc
  | isEmpty =>
    obtain ⟨r, rfl⟩ := exec_isEmpty_next hx
    rfl
  | isFull =>
    obtain ⟨r, rfl⟩ := exec_isFull_next hx
    rfl
  | put b => obtain ⟨-, h, t, -, ⟨-, rfl⟩ | ⟨-, -, rfl⟩⟩ := exec_put_next hx <;> rfl
  | emit b =>
    obtain ⟨-, h, t, u, -, hu, rfl⟩ := exec_emit_next hx
    have hkept : u.tail = s.tail := by obtain ⟨-, rfl⟩ | ⟨-, -, rfl⟩ := hu <;> rfl
    split <;> exact hkept

/-- Settles O38, one half for each port. -/
theorem eachPortWritesItsOwn : Obligations.EachPortWritesItsOwn :=
  fun _ _ _ hx => ⟨exec_c_owns hx, exec_p_keeps_tail hx⟩

/-! ### The device's account -/

theorem handedBytes_append (l l' : List Event) :
    handedBytes (l ++ l') = handedBytes l ++ handedBytes l' :=
  List.filterMap_append

/-- Only a `TxWrite` event counts as handed over. -/
theorem handedBytes_logEvent {s : State} {e : Event} (he : handedBytes [e] = []) :
    handedBytes (s.logEvent e).trace = handedBytes s.trace := by
  rw [State.logEvent_trace, handedBytes_append, he, List.append_nil]

/-- A command leaves the device and what was handed to it, or it is a DRAIN that hands a byte to a free
register (R115). -/
theorem exec_device {s s' : State} {i : Instr} (hx : exec i s = .next s') :
    (s'.txfree = s.txfree ∧ s'.txreg = s.txreg ∧ handedBytes s'.trace = handedBytes s.trace) ∨
      ∃ b, s.txfree = true ∧ s'.txfree = false ∧ s'.txreg = some b ∧
        handedBytes s'.trace = handedBytes s.trace ++ [b] := by
  cases i with
  | init =>
    obtain ⟨-, rfl⟩ := exec_init_next hx
    exact .inl ⟨rfl, rfl, handedBytes_logEvent rfl⟩
  | begin n =>
    obtain ⟨-, -, rfl⟩ := exec_begin_next hx
    exact .inl ⟨rfl, rfl, handedBytes_logEvent rfl⟩
  | isEmpty =>
    obtain ⟨r, rfl⟩ := exec_isEmpty_next hx
    exact .inl ⟨rfl, rfl, rfl⟩
  | isFull =>
    obtain ⟨r, rfl⟩ := exec_isFull_next hx
    exact .inl ⟨rfl, rfl, rfl⟩
  | put b =>
    obtain ⟨-, h, t, -, ⟨-, rfl⟩ | ⟨-, -, rfl⟩⟩ := exec_put_next hx <;>
      exact .inl ⟨rfl, rfl, handedBytes_logEvent rfl⟩
  | get =>
    obtain ⟨-, h, t, -, ⟨-, rfl⟩ | ⟨-, -, b, -, rfl⟩⟩ := exec_get_next hx
    · exact .inl ⟨rfl, rfl, rfl⟩
    · exact .inl ⟨rfl, rfl, handedBytes_logEvent rfl⟩
  | emit b =>
    obtain ⟨-, h, t, u, -, hu, rfl⟩ := exec_emit_next hx
    have hkept : u.txfree = s.txfree ∧ u.txreg = s.txreg ∧
        handedBytes u.trace = handedBytes s.trace := by
      obtain ⟨-, rfl⟩ | ⟨-, -, rfl⟩ := hu <;> exact ⟨rfl, rfl, handedBytes_logEvent rfl⟩
    obtain ⟨hfree, hreg, htrace⟩ := hkept
    split
    · exact .inl ⟨hfree, hreg, (handedBytes_logEvent rfl).trans htrace⟩
    · exact .inl ⟨hfree, hreg, htrace⟩
  | drain =>
    obtain ⟨-, ⟨-, rfl⟩ | ⟨hen, h, t, -, ⟨-, rfl⟩ | ⟨-, -, b, -, rfl⟩⟩⟩ := exec_drain_next hx
    · exact .inl ⟨rfl, rfl, rfl⟩
    · exact .inl ⟨rfl, rfl, handedBytes_logEvent rfl⟩
    · obtain ⟨-, hfree, -⟩ := State.drainEnabled_iff.mp hen
      refine .inr ⟨b, hfree, rfl, rfl, ?_⟩
      have htake : handedBytes (s.trace ++ [.get b] ++ [.txWrite b]) = handedBytes s.trace ++ [b] := by
        rw [List.append_assoc, handedBytes_append]
        rfl
      exact htake

theorem exec_keeps_deviceAccount {s s' : State} {i : Instr} (hs : s.deviceAccount)
    (hx : exec i s = .next s') : s'.deviceAccount := by
  obtain ⟨-, -, hline⟩ := exec_constants hx
  unfold State.deviceAccount at hs ⊢
  obtain ⟨hfree, hreg, htrace⟩ | ⟨b, hfree, hfree', hreg', htrace⟩ := exec_device hx
  · rw [htrace, hline, hfree, hreg]
    exact hs
  · rw [htrace, hline, List.map_append, hs]
    simp [hfree, hfree', hreg']

/-- TX_DONE moves the byte in flight to the wire (R164). -/
theorem txDone_keeps_deviceAccount {s s' : State} (hs : s.deviceAccount) (hx : txDone s = .next s') :
    s'.deviceAccount := by
  obtain ⟨-, rfl⟩ | ⟨hbusy, b, hreg, rfl⟩ := txDone_next hx
  · exact hs
  · unfold State.deviceAccount at hs ⊢
    rw [State.finishByte_trace, hs]
    simp [hbusy, hreg]

/-- An edge's arming hands nothing to the device. -/
theorem syncH_keeps_deviceAccount {s s' : State} (hs : s.deviceAccount) (hx : syncH s = .next s') :
    s'.deviceAccount := by
  obtain h | h := syncH_frame hx <;> rw [h]
  · exact hs
  · unfold State.deviceAccount at hs ⊢
    exact (congrArg (List.map some) (handedBytes_logEvent rfl)).trans hs

/-- Settles O43: a DRAIN adds the byte in flight, TX_DONE moves it to the wire, nothing else hands over. -/
theorem stepKeepsTheDeviceAccount : Obligations.StepKeepsTheDeviceAccount := by
  intro s s' hs hx
  refine step_keeps State.deviceAccount ?_ (fun _ _ _ => exec_keeps_deviceAccount)
    (fun _ _ => txDone_keeps_deviceAccount) (fun _ _ => syncH_keeps_deviceAccount) ?_ hs hx
  · intro u u' hsame hu
    rw [show u' = _ from hsame]
    exact hu
  · intro u u' hu hx
    rw [syncT_frame hx]
    exact hu

end Sys2Proof.Machine
end

section
/-! SUPPORT. The order around the ring (spec/42_cdc_sync.md R142): travel along part of the positions is no
longer than along all of them, and what that says of the two sides' views (spec/20_memory.md R59). -/

namespace Sys2Proof.Machine

/-! ### Travel -/

@[simp] theorem travel_cons_cons (C a b : Nat) (l : List Nat) :
    travel C (a :: b :: l) = dist C a b + travel C (b :: l) := rfl

/-- Going by one more position first makes the way no shorter. -/
theorem travel_le_travel_cons_cons {C a c : Nat} {l : List Nat} (ha : a < C)
    (hl : ∀ x ∈ c :: l, x < C) : travel C (a :: l) ≤ travel C (a :: c :: l) := by
  cases l with
  | nil => exact Nat.zero_le _
  | cons b l =>
    have htri := dist_triangle ha (hl c (by simp)) (hl b (by simp))
    simp only [travel_cons_cons]
    omega

/-- From a position on, leaving out later positions makes the way no longer. -/
theorem travel_cons_le_of_sublist {C : Nat} {l' l : List Nat} (hsub : l'.Sublist l)
    (hl : ∀ x ∈ l, x < C) : ∀ a < C, travel C (a :: l') ≤ travel C (a :: l) := by
  induction hsub with
  | slnil => exact fun a _ => le_rfl
  | cons c _ ih =>
    intro a ha
    have hskip := travel_le_travel_cons_cons ha hl
    have hrest := ih (fun x hx => hl x (List.mem_cons_of_mem _ hx)) a ha
    omega
  | cons_cons c _ ih =>
    intro a _
    have hrest := ih (fun x hx => hl x (List.mem_cons_of_mem _ hx)) c (hl c (by simp))
    simpa using hrest

theorem travel_le_travel_cons (C a : Nat) (l : List Nat) : travel C l ≤ travel C (a :: l) := by
  cases l with
  | nil => exact Nat.zero_le _
  | cons b l => simp

/-- Leaving out positions makes the way no longer. -/
theorem travel_le_of_sublist {C : Nat} {l' l : List Nat} (hsub : l'.Sublist l)
    (hl : ∀ x ∈ l, x < C) : travel C l' ≤ travel C l := by
  induction hsub with
  | slnil => exact le_rfl
  | cons c _ ih =>
    have hrest := ih fun x hx => hl x (List.mem_cons_of_mem _ hx)
    exact hrest.trans (travel_le_travel_cons C c _)
  | cons_cons c hsub _ =>
    exact travel_cons_le_of_sublist hsub (fun x hx => hl x (List.mem_cons_of_mem _ hx)) c (hl c (by simp))

/-! ### The stages' values -/

theorem lt_of_mem_stageValues {C v : Nat} {chain : List (Option Nat)} (hv : v ∈ stageValues C chain) :
    v < C := by
  obtain ⟨stage, -, hdec⟩ := List.mem_filterMap.mp hv
  obtain ⟨g, -, hg⟩ := Option.bind_eq_some_iff.mp hdec
  exact dec_lt hg

/-- What a synchroniser shows is the value of one of its stages. -/
theorem mem_stageValues_of_seenThrough {C v : Nat} {chain : List (Option Nat)}
    (hv : seenThrough C chain = .ok v) : v ∈ stageValues C chain := by
  unfold seenThrough at hv
  split at hv
  next g hlast =>
    split at hv
    next v' hdec =>
      injection hv with hv
      refine List.mem_filterMap.mpr ⟨some g, ?_, hv ▸ hdec⟩
      exact List.mem_reverse.mpr (List.mem_of_getLast? hlast)
    next => cases hv
  next => cases hv

/-! ### The cursors and what is seen of them -/

theorem State.cursors_lt {s : State} {h t : Nat} (hs : s.wf = true) (hh : s.head = some h)
    (ht : s.tail = some t) : h < s.cfg.C ∧ t < s.cfg.C := by
  obtain ⟨-, -, hcur, -⟩ := State.wf_iff.mp hs
  exact (State.cursorsOk_some hh ht).mp hcur

theorem State.ringOrdered_of_sameBlock {s s' : State} (hsame : s.sameBlock s') :
    s'.ringOrdered = s.ringOrdered := by
  rw [show s' = _ from hsame]
  rfl

/-- In a ring-ordered state any of the positions, in their order, lie within one lap. -/
theorem State.travel_lt_of_ringOrdered {s : State} {h t : Nat} {l : List Nat} (hs : s.wf = true)
    (hord : s.ringOrdered = true) (hh : s.head = some h) (ht : s.tail = some t)
    (hsub : l.Sublist (stageValues s.cfg.C s.ts ++ t :: stageValues s.cfg.C s.hs ++ [h])) :
    travel s.cfg.C l < s.cfg.C := by
  obtain ⟨hhl, htl⟩ := State.cursors_lt hs hh ht
  have hlap : travel s.cfg.C (stageValues s.cfg.C s.ts ++ t :: stageValues s.cfg.C s.hs ++ [h]) <
      s.cfg.C := by
    simpa only [State.ringOrdered, hh, ht, decide_eq_true_eq] using hord
  refine lt_of_le_of_lt (travel_le_of_sublist hsub fun x hx => ?_) hlap
  simp only [List.mem_append, List.mem_cons, List.not_mem_nil, or_false] at hx
  obtain (hx | rfl | hx) | rfl := hx
  · exact lt_of_mem_stageValues hx
  · exact htl
  · exact lt_of_mem_stageValues hx
  · exact hhl

/-- The producer sees `head`, and a tail that `tail` has reached or passed without lapping (R142 b). -/
theorem State.view_p_order {s : State} {h t a b : Nat} (hs : s.wf = true)
    (hord : s.ringOrdered = true) (hh : s.head = some h) (ht : s.tail = some t)
    (hv : s.view .p = .ok (a, b)) :
    a = h ∧ b < s.cfg.C ∧ dist s.cfg.C b t + dist s.cfg.C t h < s.cfg.C := by
  obtain ⟨hhl, htl⟩ := State.cursors_lt hs hh ht
  obtain ⟨h₀, t₀, hh₀, ht₀, hcase⟩ := State.view_ok hv
  obtain rfl : h₀ = h := Option.some.inj (hh₀.symm.trans hh)
  obtain rfl : t₀ = t := Option.some.inj (ht₀.symm.trans ht)
  obtain ⟨-, rfl, rfl⟩ | ⟨-, -, rfl, hseen⟩ | ⟨-, hp, -⟩ := hcase
  · exact ⟨rfl, htl, by simpa using dist_lt hhl⟩
  · have hmem := mem_stageValues_of_seenThrough hseen
    have hsub : [b, t₀, a].Sublist
        (stageValues s.cfg.C s.ts ++ t₀ :: stageValues s.cfg.C s.hs ++ [a]) := by
      have h1 : [b].Sublist (stageValues s.cfg.C s.ts) := List.singleton_sublist.mpr hmem
      have h2 : [t₀].Sublist (t₀ :: stageValues s.cfg.C s.hs) := List.singleton_sublist.mpr (by simp)
      exact (h1.append h2).append (List.Sublist.refl [a])
    exact ⟨rfl, lt_of_mem_stageValues hmem, State.travel_lt_of_ringOrdered hs hord hh ht hsub⟩
  · cases hp

/-- The consumer sees `tail`, and a head between it and `head` (R142 a). -/
theorem State.view_c_order {s : State} {h t a b : Nat} (hs : s.wf = true)
    (hord : s.ringOrdered = true) (hh : s.head = some h) (ht : s.tail = some t)
    (hv : s.view .c = .ok (a, b)) :
    b = t ∧ a < s.cfg.C ∧ dist s.cfg.C t a + dist s.cfg.C a h < s.cfg.C := by
  obtain ⟨hhl, htl⟩ := State.cursors_lt hs hh ht
  obtain ⟨h₀, t₀, hh₀, ht₀, hcase⟩ := State.view_ok hv
  obtain rfl : h₀ = h := Option.some.inj (hh₀.symm.trans hh)
  obtain rfl : t₀ = t := Option.some.inj (ht₀.symm.trans ht)
  obtain ⟨-, rfl, rfl⟩ | ⟨-, hp, -⟩ | ⟨-, -, rfl, hseen⟩ := hcase
  · exact ⟨rfl, hhl, by simpa using dist_lt hhl⟩
  · cases hp
  · have hmem := mem_stageValues_of_seenThrough hseen
    have hsub : [b, a, h₀].Sublist
        (stageValues s.cfg.C s.ts ++ b :: stageValues s.cfg.C s.hs ++ [h₀]) := by
      have h1 : [a].Sublist (stageValues s.cfg.C s.hs) := List.singleton_sublist.mpr hmem
      have h2 := (h1.cons_cons b).trans (List.sublist_append_right (stageValues s.cfg.C s.ts) _)
      exact h2.append (List.Sublist.refl [h₀])
    exact ⟨rfl, lt_of_mem_stageValues hmem, State.travel_lt_of_ringOrdered hs hord hh ht hsub⟩

/-- Room that the producer sees is there (R59). -/
theorem State.not_full_of_view {s : State} {h t a b : Nat} (hs : s.wf = true)
    (hord : s.ringOrdered = true) (hh : s.head = some h) (ht : s.tail = some t)
    (hv : s.view .p = .ok (a, b)) (hroom : inc s.cfg.C a ≠ b) : inc s.cfg.C h ≠ t := by
  obtain ⟨hhl, htl⟩ := State.cursors_lt hs hh ht
  obtain ⟨rfl, hbl, hlap⟩ := State.view_p_order hs hord hh ht hv
  intro hfull
  have hocc : dist s.cfg.C t a = s.cfg.C - 1 := (fullFlag_iff_dist hhl htl).mp (fullFlag_iff.mpr hfull)
  have hbt : b = t := (dist_eq_zero hbl htl).mp (by omega)
  exact hroom (hfull.trans hbt.symm)

/-- A byte that the consumer sees is there (R59). -/
theorem State.not_empty_of_view {s : State} {h t a b : Nat} (hs : s.wf = true)
    (hord : s.ringOrdered = true) (hh : s.head = some h) (ht : s.tail = some t)
    (hv : s.view .c = .ok (a, b)) (hbyte : a ≠ b) : h ≠ t := by
  obtain ⟨rfl, hal, hlap⟩ := State.view_c_order hs hord hh ht hv
  rintro rfl
  have hhl := (State.cursors_lt hs hh ht).1
  rw [dist_eq hhl hal, dist_eq hal hhl] at hlap
  split_ifs at hlap <;> omega

/-- Settles O48: the order around the ring puts `tail_seen` no further than `tail`, and `head_seen` no
further than `head`. -/
theorem viewsAreConservative : Obligations.ViewsAreConservative := by
  intro s h t hs hord hh ht
  refine ⟨fun t' hv hroom => ?_, fun h' hv hbyte => ?_⟩
  · exact beq_false_of_ne (State.not_full_of_view hs hord hh ht hv (ne_of_beq_false hroom))
  · exact beq_false_of_ne (State.not_empty_of_view hs hord hh ht hv (ne_of_beq_false hbyte))

end Sys2Proof.Machine
end

section
/-! SUPPORT. First in, first out (spec/20_memory.md R58): how the queue and the accepted and taken bytes
move with each update of the state; a stored byte enters at the end and a taken one leaves at the front. -/

namespace Sys2Proof.Machine

/-! ### Slots -/

/-- Going `k` slots on from a cursor value is at distance `k`. -/
theorem dist_add_mod {C t k : Nat} (ht : t < C) (hk : k < C) : dist C t ((t + k) % C) = k := by
  have hlt : (t + k) % C < C := Nat.mod_lt _ (by omega)
  rw [dist_eq ht hlt]
  rcases lt_or_ge (t + k) C with hin | hover
  · rw [Nat.mod_eq_of_lt hin]
    split_ifs <;> omega
  · rw [Nat.mod_eq_sub_mod hover, Nat.mod_eq_of_lt (by omega)]
    split_ifs <;> omega

theorem slotsFrom_succ_last (C : Nat) (m : Memory) (t n : Nat) :
    slotsFrom C m t (n + 1) = slotsFrom C m t n ++ [Memory.read m ((t + n) % C)] := by
  simp [slotsFrom, List.range_succ]

theorem slotsFrom_succ_first {C t : Nat} (ht : t < C) (m : Memory) (n : Nat) :
    slotsFrom C m t (n + 1) = Memory.read m t :: slotsFrom C m (inc C t) n := by
  have hnext : ∀ k, (t + (k + 1)) % C = (inc C t + k) % C := fun k => by
    rw [inc, Nat.mod_add_mod, Nat.add_right_comm, Nat.add_assoc]
  simp [slotsFrom, List.range_succ_eq_map, Nat.mod_eq_of_lt ht, hnext]

/-- A write to the slot at `head` touches none of the queued slots. -/
theorem slotsFrom_write_head {C h t : Nat} (ht : t < C) (hh : h < C) (m : Memory) (b : Byte) :
    slotsFrom C (Memory.write m h b) t (dist C t h) = slotsFrom C m t (dist C t h) := by
  refine List.map_congr_left fun k hk => Memory.read_write_other m h _ b ?_
  have hk : k < dist C t h := List.mem_range.mp hk
  have hkC : k < C := hk.trans (dist_lt hh)
  intro hslot
  have hdist := dist_add_mod ht hkC
  rw [hslot] at hdist
  omega

/-! ### The queue -/

/-- A byte stored where there is room enters the queue at its end. -/
theorem State.queue_store {s : State} {h t : Nat} (hh : s.head = some h) (ht : s.tail = some t)
    (hhl : h < s.cfg.C) (htl : t < s.cfg.C) (hroom : inc s.cfg.C h ≠ t) (b : Byte) :
    ((s.setStorage (Memory.write s.storage h b)).setHead (inc s.cfg.C h)).queue =
      s.queue ++ [some b] := by
  have hocc : dist s.cfg.C t (inc s.cfg.C h) = dist s.cfg.C t h + 1 := by
    rw [dist_inc_right htl hhl, if_neg hroom]
  have hnew : ((s.setStorage (Memory.write s.storage h b)).setHead (inc s.cfg.C h)).queue =
      slotsFrom s.cfg.C (Memory.write s.storage h b) t (dist s.cfg.C t (inc s.cfg.C h)) :=
    State.queue_eq (State.setHead_head _ _) ht
  rw [hnew, hocc, slotsFrom_succ_last, slotsFrom_write_head htl hhl, add_dist_mod htl hhl,
    Memory.read_write_same, State.queue_eq hh ht]

/-- The byte at `tail` leaves a queue that is not empty at its front. -/
theorem State.queue_take {s : State} {h t : Nat} (hh : s.head = some h) (ht : s.tail = some t)
    (hhl : h < s.cfg.C) (htl : t < s.cfg.C) (hbyte : h ≠ t) :
    s.queue = Memory.read s.storage t :: (s.setTail (inc s.cfg.C t)).queue := by
  rw [State.queue_eq hh ht, State.queue_eq (s := s.setTail (inc s.cfg.C t)) hh rfl,
    ← dist_inc_left htl hhl hbyte.symm, slotsFrom_succ_first htl]
  rfl

theorem State.queue_nil {s : State} {i : Nat} (hh : s.head = some i) (ht : s.tail = some i) :
    s.queue = [] := by
  rw [State.queue_eq hh ht, dist_self]
  rfl

/-! ### The events since the last INIT -/

theorem sinceInit_concat_init (l : List Event) : sinceInit (l ++ [.init]) = [] := by
  simp [sinceInit]

theorem sinceInit_concat {e : Event} (he : e ≠ .init) (l : List Event) :
    sinceInit (l ++ [e]) = sinceInit l ++ [e] := by
  simp [sinceInit, he]

/-- An event that counts neither as accepted nor as taken, and starts no new count. -/
def Event.quiet (e : Event) : Prop := e ≠ .init ∧ acceptedBytes [e] = [] ∧ takenBytes [e] = []

theorem acceptedBytes_append (l l' : List Event) :
    acceptedBytes (l ++ l') = acceptedBytes l ++ acceptedBytes l' :=
  List.filterMap_append

theorem takenBytes_append (l l' : List Event) :
    takenBytes (l ++ l') = takenBytes l ++ takenBytes l' :=
  List.filterMap_append

@[simp] theorem acceptedBytes_put (b : Byte) : acceptedBytes [.put b] = [b] := rfl
@[simp] theorem takenBytes_put (b : Byte) : takenBytes [.put b] = [] := rfl
@[simp] theorem acceptedBytes_get (b : Byte) : acceptedBytes [.get b] = [] := rfl
@[simp] theorem takenBytes_get (b : Byte) : takenBytes [.get b] = [b] := rfl

/-! ### What keeps first in, first out -/

@[simp] theorem State.fifo_respond (s : State) (r : RespWord) : (s.respond r).fifo ↔ s.fifo := Iff.rfl
@[simp] theorem State.fifo_setGie (s : State) (b : Bool) : (s.setGie b).fifo ↔ s.fifo := Iff.rfl
@[simp] theorem State.fifo_writeOutputRegister (s : State) (b : Byte) :
    (s.writeOutputRegister b).fifo ↔ s.fifo := Iff.rfl

theorem State.fifo_of_sameBlock {s s' : State} (hsame : s.sameBlock s') : s'.fifo ↔ s.fifo := by
  rw [show s' = _ from hsame]
  exact Iff.rfl

/-- What an event does to the count: it may add its byte on either side. -/
theorem State.fifo_logEvent_iff {e : Event} (he : e ≠ .init) (s : State) :
    (s.logEvent e).fifo ↔ (s.head.isSome = true →
      (acceptedBytes (sinceInit s.trace) ++ acceptedBytes [e]).map some =
        (takenBytes (sinceInit s.trace) ++ takenBytes [e]).map some ++ s.queue) := by
  rw [State.fifo, State.logEvent_trace, sinceInit_concat he, acceptedBytes_append, takenBytes_append]
  exact Iff.rfl

theorem State.fifo_logEvent {e : Event} (he : e.quiet) (s : State) :
    (s.logEvent e).fifo ↔ s.fifo := by
  obtain ⟨hinit, hacc, htak⟩ := he
  rw [State.fifo_logEvent_iff hinit, hacc, htak, List.append_nil, List.append_nil]
  exact Iff.rfl

@[simp] theorem State.fifo_logEvent_drop (s : State) (b : Byte) :
    (s.logEvent (.drop b)).fifo ↔ s.fifo := State.fifo_logEvent ⟨Event.noConfusion, rfl, rfl⟩ s
@[simp] theorem State.fifo_logEvent_txWrite (s : State) (b : Byte) :
    (s.logEvent (.txWrite b)).fifo ↔ s.fifo := State.fifo_logEvent ⟨Event.noConfusion, rfl, rfl⟩ s
@[simp] theorem State.fifo_arm (s : State) : s.arm.fifo ↔ s.fifo :=
  State.fifo_logEvent (e := .arm) ⟨Event.noConfusion, rfl, rfl⟩ (s.setArmed true)
@[simp] theorem State.fifo_disarm (s : State) : s.disarm.fifo ↔ s.fifo :=
  State.fifo_logEvent (e := .disarm) ⟨Event.noConfusion, rfl, rfl⟩ (s.setArmed false)

/-- INIT starts the count with an empty queue. -/
theorem State.fifo_ringInit (s : State) : s.ringInit.fifo := by
  intro _
  rw [State.ringInit_trace, sinceInit_concat_init,
    State.queue_nil (State.ringInit_head s) (State.ringInit_tail s)]
  rfl

/-- A byte stored where there is room is accepted and enters the queue (R94). -/
theorem State.fifo_store {s : State} {h t : Nat} (hs : s.fifo) (hh : s.head = some h)
    (ht : s.tail = some t) (hhl : h < s.cfg.C) (htl : t < s.cfg.C) (hroom : inc s.cfg.C h ≠ t) (b : Byte) :
    (((s.setStorage (Memory.write s.storage h b)).setHead (inc s.cfg.C h)).logEvent (.put b)).fifo := by
  have hold := hs (by simp [hh])
  have hqueue := State.queue_store hh ht hhl htl hroom b
  refine (State.fifo_logEvent_iff Event.noConfusion _).mpr fun _ => ?_
  simp [hqueue, hold]

/-- The byte at `tail` of a queue that is not empty is taken and leaves the queue (R95). -/
theorem State.fifo_take {s : State} {h t : Nat} {b : Byte} (hs : s.fifo) (hh : s.head = some h)
    (ht : s.tail = some t) (hhl : h < s.cfg.C) (htl : t < s.cfg.C) (hbyte : h ≠ t)
    (hb : Memory.read s.storage t = some b) :
    ((s.setTail (inc s.cfg.C t)).logEvent (.get b)).fifo := by
  have hold := hs (by simp [hh])
  have hqueue := State.queue_take hh ht hhl htl hbyte
  rw [hb] at hqueue
  rw [hqueue] at hold
  refine (State.fifo_logEvent_iff Event.noConfusion _).mpr fun _ => ?_
  simp [hold]

/-! ### The steps keep first in, first out -/

/-- A byte stored at the room the producer sees. -/
theorem State.fifo_store_of_view {s : State} {h t : Nat} (hs : s.wf = true) (hord : s.ringOrdered = true)
    (hq : s.fifo) (hv : s.view .p = .ok (h, t)) (hroom : inc s.cfg.C h ≠ t) (b : Byte) :
    (((s.setStorage (Memory.write s.storage h b)).setHead (inc s.cfg.C h)).logEvent (.put b)).fifo := by
  obtain ⟨-, t₀, -, ht, -⟩ := State.view_ok hv
  have hh := State.view_p_head hv
  obtain ⟨hhl, htl⟩ := State.cursors_lt hs hh ht
  exact State.fifo_store hq hh ht hhl htl (State.not_full_of_view hs hord hh ht hv hroom) b

/-- The byte the consumer sees is taken. -/
theorem State.fifo_take_of_view {s : State} {h t : Nat} {b : Byte} (hs : s.wf = true)
    (hord : s.ringOrdered = true) (hq : s.fifo) (hv : s.view .c = .ok (h, t)) (hbyte : h ≠ t)
    (hb : Memory.read s.storage t = some b) :
    ((s.setTail (inc s.cfg.C t)).logEvent (.get b)).fifo := by
  obtain ⟨h₀, -, hh, -⟩ := State.view_ok hv
  have ht := State.view_c_tail hv
  obtain ⟨hhl, htl⟩ := State.cursors_lt hs hh ht
  exact State.fifo_take hq hh ht hhl htl (State.not_empty_of_view hs hord hh ht hv hbyte) hb

theorem exec_keeps_fifo {s s' : State} {i : Instr} (hs : s.wf = true) (hord : s.ringOrdered = true)
    (hq : s.fifo) (hx : exec i s = .next s') : s'.fifo := by
  cases i with
  | init =>
    obtain ⟨-, rfl⟩ := exec_init_next hx
    exact State.fifo_ringInit s
  | begin n =>
    obtain ⟨-, -, rfl⟩ := exec_begin_next hx
    exact State.fifo_ringInit _
  | isEmpty =>
    obtain ⟨r, rfl⟩ := exec_isEmpty_next hx
    exact hq
  | isFull =>
    obtain ⟨r, rfl⟩ := exec_isFull_next hx
    exact hq
  | put b =>
    obtain ⟨-, h, t, hv, ⟨-, rfl⟩ | ⟨hroom, -, rfl⟩⟩ := exec_put_next hx
    · simpa using hq
    · exact State.fifo_store_of_view (s := s) hs hord hq hv hroom b
  | get =>
    obtain ⟨-, h, t, hv, ⟨-, rfl⟩ | ⟨hbyte, -, b, hb, rfl⟩⟩ := exec_get_next hx
    · exact hq
    · exact State.fifo_take_of_view (s := s) hs hord hq hv hbyte hb
  | emit b =>
    obtain ⟨-, h, t, u, hv, hu, rfl⟩ := exec_emit_next hx
    have hfifo : u.fifo := by
      obtain ⟨-, rfl⟩ | ⟨hroom, -, rfl⟩ := hu
      · simpa using hq
      · exact State.fifo_store_of_view (s := s.setGie false) hs hord hq hv hroom b
    rw [State.fifo_respond, State.fifo_setGie]
    split
    · exact (State.fifo_arm u).mpr hfifo
    · exact hfifo
  | drain =>
    obtain ⟨-, ⟨-, rfl⟩ | ⟨-, h, t, hv, ⟨-, rfl⟩ | ⟨hbyte, -, b, hb, rfl⟩⟩⟩ := exec_drain_next hx
    · exact hq
    · simpa using hq
    · have htake := State.fifo_take_of_view hs hord hq hv hbyte hb
      simpa using htake

theorem txDone_keeps_fifo {s s' : State} (hq : s.fifo) (hx : txDone s = .next s') : s'.fifo := by
  obtain ⟨-, rfl⟩ | ⟨-, b, -, rfl⟩ := txDone_next hx <;> exact hq

theorem syncH_keeps_fifo {s s' : State} (hq : s.fifo) (hx : syncH s = .next s') : s'.fifo := by
  obtain h | h := syncH_frame hx <;> rw [h]
  · exact hq
  · exact (State.fifo_arm _).mpr hq

theorem syncT_keeps_fifo {s s' : State} (hq : s.fifo) (hx : syncT s = .next s') : s'.fifo := by
  rw [syncT_frame hx]
  exact hq

/-- Settles O41: the views err on the safe side, so a stored byte finds room and a taken one is queued;
nothing else writes the queue or counts. -/
theorem stepKeepsFirstInFirstOut : Obligations.StepKeepsFirstInFirstOut := by
  intro s s' hs hord hq hx
  obtain ⟨-, hu | ⟨i, u, hu, hx⟩ | ⟨u, hu, hx⟩ | ⟨u, hu, hx⟩ | ⟨u, hu, hx⟩⟩ := step_cases hx
  all_goals have hqu := (State.fifo_of_sameBlock hu).mpr hq
  · exact hqu
  · exact exec_keeps_fifo ((State.wf_of_sameBlock hu).trans hs)
      ((State.ringOrdered_of_sameBlock hu).trans hord) hqu hx
  · exact txDone_keeps_fifo hqu hx
  · exact syncH_keeps_fifo hqu hx
  · exact syncT_keeps_fifo hqu hx

end Sys2Proof.Machine
end

section
/-! SUPPORT. Once the cursors have values nothing faults (spec/20_memory.md R64, spec/60_exceptions.md R206):
where each shared operation, the device and an edge can fault, and why a state with the invariants is not there. -/

namespace Sys2Proof.Machine

/-! ### Where the operations fault -/

/-- With a view, `withView` adds no fault. -/
theorem State.withView_fault {s : State} {rule : Nat → Nat → Result} {f : Fault} {v : Nat × Nat}
    (hv : s.view s.issuer = .ok v) (hx : s.withView rule = .fault f) : rule v.1 v.2 = .fault f := by
  rwa [State.withView_eq hv] at hx

/-- With a view, a command's checks add no fault (R90). -/
theorem State.checks_fault {s : State} {i : Instr} {rule : Nat → Nat → Result} {f : Fault}
    {v : Nat × Nat} (hv : s.view s.issuer = .ok v) (hx : s.onPort i (s.withView rule) = .fault f) :
    accepts i s.issuer = true ∧ rule v.1 v.2 = .fault f := by
  obtain ⟨-, ha, hx⟩ := State.onPort_fault hx
  exact ⟨ha, State.withView_fault hv hx⟩

/-- A put faults only outside the slots. -/
theorem State.ringPut_ne_error {s : State} {h : Nat} (hlt : h < s.cfg.C) (t : Nat) (b : Byte) (f : Fault) :
    s.ringPut h t b ≠ .error f := by
  obtain ⟨-, hr⟩ | ⟨-, -, hr⟩ | ⟨-, hout, -⟩ := State.ringPut_cases s h t b
  · simp [hr]
  · simp [hr]
  · exact absurd hlt hout

/-- A get faults only where the view is not empty and the slot is none or has no value. -/
theorem State.ringGet_ne_error {s : State} {h t : Nat}
    (hslot : h ≠ t → t < s.cfg.C ∧ ∃ b, Memory.read s.storage t = some b) (f : Fault) :
    s.ringGet h t ≠ .error f := by
  obtain ⟨-, hr⟩ | ⟨-, -, b, -, hr⟩ | ⟨hne, g, -, hbad⟩ := State.ringGet_cases s h t
  · simp [hr]
  · simp [hr]
  · obtain ⟨hlt, b, hb⟩ := hslot hne
    exact absurd hbad (by simp [hlt, hb])

/-! ### What the invariants say of views and slots -/

/-- Once `head` has a value both sides have a view (R90). -/
theorem State.view_ok_of_wf {s : State} (hs : s.wf = true) (hh : s.head.isSome = true) (port : Port) :
    ∃ v, s.view port = .ok v := by
  obtain ⟨-, -, hcur, -⟩ := State.wf_iff.mp hs
  obtain ⟨h, hh⟩ := Option.isSome_iff_exists.mp hh
  obtain ⟨-, t, ht, -⟩ := State.cursors_of_head hcur hh
  obtain ⟨-, -, -, hviews⟩ := viewsOfTheTwoSides s h t hh ht
  obtain ⟨h', t', hp, hc, -⟩ := hviews hs
  cases port
  · exact ⟨_, hp⟩
  · exact ⟨_, hc⟩

/-- The slot at `tail` of a queue that is not empty holds a value (R40 c). -/
theorem State.fifo_read_tail {s : State} {h t : Nat} (hs : s.wf = true) (hq : s.fifo)
    (hh : s.head = some h) (ht : s.tail = some t) (hbyte : h ≠ t) :
    ∃ b, Memory.read s.storage t = some b := by
  obtain ⟨hhl, htl⟩ := State.cursors_lt hs hh ht
  have hqueue := State.queue_take hh ht hhl htl hbyte
  have hcount := hq (by simp [hh])
  have hmem : Memory.read s.storage t ∈ (acceptedBytes (sinceInit s.trace)).map some := by
    simp [hcount, hqueue]
  obtain ⟨b, -, hb⟩ := List.mem_map.mp hmem
  exact ⟨b, hb.symm⟩

/-- A put in the producer view finds its slot. -/
theorem State.ringPut_of_view_ne_error {s : State} {v : Nat × Nat} (hs : s.wf = true)
    (hv : s.view .p = .ok v) (b : Byte) (f : Fault) : s.ringPut v.1 v.2 b ≠ .error f := by
  obtain ⟨-, t, -, ht, -⟩ := State.view_ok hv
  exact State.ringPut_ne_error (State.cursors_lt hs (State.view_p_head hv) ht).1 _ b f

/-- A get in the consumer view finds a byte where it sees one. -/
theorem State.ringGet_of_view_ne_error {s : State} {v : Nat × Nat} (hs : s.wf = true)
    (hord : s.ringOrdered = true) (hq : s.fifo) (hv : s.view .c = .ok v) (f : Fault) :
    s.ringGet v.1 v.2 ≠ .error f := by
  obtain ⟨h, -, hh, -⟩ := State.view_ok hv
  have ht := State.view_c_tail hv
  refine State.ringGet_ne_error (fun hbyte => ⟨(State.cursors_lt hs hh ht).2, ?_⟩) f
  exact State.fifo_read_tail hs hq hh ht (State.not_empty_of_view hs hord hh ht hv hbyte)

/-! ### No command and no step faults -/

/-- No command faults (R206): INIT and BEGIN have no failing read, and the others find their view and slot. -/
theorem exec_ne_fault {s : State} (hs : s.wf = true) (hord : s.ringOrdered = true) (hq : s.fifo)
    (hh : s.head.isSome = true) (i : Instr) (f : Fault) : exec i s ≠ .fault f := by
  intro hx
  obtain ⟨v, hv⟩ := State.view_ok_of_wf hs hh s.issuer
  cases i with
  | init =>
    obtain ⟨-, -, hx⟩ := State.onPort_fault hx
    cases hx
  | begin n =>
    obtain ⟨-, -, hx⟩ := State.onPort_fault hx
    split at hx <;> cases hx
  | isEmpty | isFull =>
    cases (State.checks_fault hv hx).2
  | put b =>
    obtain ⟨ha, hx⟩ := State.checks_fault hv hx
    have hp : s.issuer = .p := by simpa [accepts] using ha
    split at hx
    next => cases hx
    next hr => exact State.ringPut_of_view_ne_error hs (hp ▸ hv) b _ hr
  | emit b =>
    obtain ⟨ha, hx⟩ := State.checks_fault hv hx
    have hp : s.issuer = .p := by simpa [accepts] using ha
    split at hx
    next => cases hx
    next hr => exact State.ringPut_of_view_ne_error (s := s.setGie false) hs (hp ▸ hv) b _ hr
  | get =>
    obtain ⟨ha, hx⟩ := State.checks_fault hv hx
    have hc : s.issuer = .c := by simpa [accepts] using ha
    split at hx
    next => cases hx
    next => cases hx
    next hr => exact State.ringGet_of_view_ne_error hs hord hq (hc ▸ hv) _ hr
  | drain =>
    obtain ⟨-, ha, hx⟩ := State.onPort_fault hx
    have hc : s.issuer = .c := by simpa [accepts] using ha
    split at hx
    next =>
      have hx := State.withView_fault hv hx
      split at hx
      next => cases hx
      next => cases hx
      next hr => exact State.ringGet_of_view_ne_error hs hord hq (hc ▸ hv) _ hr
    next => cases hx

/-- TX_DONE finds the byte in flight (R33). -/
theorem txDone_ne_fault {s : State} (hs : s.wf = true) (f : Fault) : txDone s ≠ .fault f := by
  obtain ⟨-, -, -, -, hreg⟩ := State.wf_iff.mp hs
  unfold txDone
  split
  next => exact nofun
  next hbusy =>
    obtain ⟨b, hb⟩ := Option.isSome_iff_exists.mp (hreg.resolve_left hbusy)
    simp [hb]

/-- An edge decodes the word before and the word after: both are code words (R142). -/
theorem syncH_ne_fault {s : State} (hs : s.wf = true) (f : Fault) : syncH s ≠ .fault f := by
  obtain ⟨-, -, hcur, ⟨hhs, -⟩, -⟩ := State.wf_iff.mp hs
  unfold syncH
  split
  next h t hh ht =>
    split
    next => exact nofun
    next hS =>
      have hhl := (State.cursors_lt hs hh ht).1
      obtain ⟨old, hold, -⟩ := State.seenThrough_of_chainOk hh hS hhs
      obtain ⟨new, hnew, -⟩ :=
        State.seenThrough_of_chainOk hh hS (State.chainOk_shiftIn hh hhl hhs)
      simp [hold, hnew]
  next => exact nofun

theorem syncT_ne_fault (s : State) (f : Fault) : syncT s ≠ .fault f := by
  unfold syncT
  split
  · split <;> exact nofun
  · exact nofun

theorem State.sameBlock_trans {s u v : State} (hsu : s.sameBlock u) (huv : u.sameBlock v) :
    s.sameBlock v := by
  unfold State.sameBlock at hsu huv ⊢
  rw [huv, hsu]

/-- A fault of an issued word is its command's. -/
theorem State.issueWord_fault {s taken : State} {port : Port} {w : CmdWord} {f : Fault}
    (hx : s.issueWord port w taken = .fault f) : ∃ i, exec i (taken.issueOn port) = .fault f := by
  unfold State.issueWord at hx
  split at hx
  · cases hx
  · split at hx
    · cases hx
    · exact ⟨_, hx⟩

/-- A fault of a step is a command's, the device's or an edge's. -/
theorem step_fault {s : State} {f : Fault} (hx : step s = .fault f) :
    ∃ u, s.sameBlock u ∧
      ((∃ i, exec i u = .fault f) ∨ txDone u = .fault f ∨ syncH u = .fault f ∨ syncT u = .fault f) := by
  unfold step State.takeStep at hx
  split at hx
  case isFalse => cases hx
  case isTrue =>
    have hadv := State.sameBlock_advance s
    generalize s.turn = turn at hx
    cases turn with
    | producer =>
      simp only [State.runTurn, State.producerTurn] at hx
      split at hx
      next => cases hx
      next =>
        refine ⟨_, State.sameBlock_trans hadv ?_, .inl (State.issueWord_fault hx)⟩
        rfl
      next => split at hx <;> cases hx
    | consumer =>
      simp only [State.runTurn, State.consumerTurn] at hx
      split at hx
      next => cases hx
      next =>
        refine ⟨_, State.sameBlock_trans hadv ?_, .inl (State.issueWord_fault hx)⟩
        rfl
    | drain =>
      simp only [State.runTurn, State.drainTurn] at hx
      split at hx
      next =>
        refine ⟨_, State.sameBlock_trans hadv ?_, .inl ⟨.drain, hx⟩⟩
        rfl
      next => cases hx
    | txDone => exact ⟨_, hadv, .inr (.inl hx)⟩
    | syncH => exact ⟨_, hadv, .inr (.inr (.inl hx))⟩
    | syncT => exact ⟨_, hadv, .inr (.inr (.inr hx))⟩

/-- Settles O53: a fault of a step is one of a command, of TX_DONE or of an edge, and none of them faults where
the invariants hold and `head` has a value. -/
theorem nothingFaultsAfterInitialisation : Obligations.NothingFaultsAfterInitialisation := by
  intro s hs hord hq hh
  refine ⟨exec_ne_fault hs hord hq hh, fun f hx => ?_⟩
  obtain ⟨u, hu, hx⟩ := step_fault hx
  have hsu : u.wf = true := (State.wf_of_sameBlock hu).trans hs
  obtain ⟨i, hx⟩ | hx | hx | hx := hx
  · have hordu := (State.ringOrdered_of_sameBlock hu).trans hord
    have hqu := (State.fifo_of_sameBlock hu).mpr hq
    have hhu : u.head.isSome = true := by rwa [show u = _ from hu]
    exact exec_ne_fault hsu hordu hqu hhu i f hx
  · exact txDone_ne_fault hsu f hx
  · exact syncH_ne_fault hsu f hx
  · exact syncT_ne_fault u f hx

end Sys2Proof.Machine
end

section
/-! SUPPORT. Decoding and encoding (spec/30_encoding.md R72 to R79, R86): what the decoder does with each
opcode, said once, from it that `decode` and `encode` are inverse, and the opcode map's rows through them. -/

namespace Sys2Proof

/-! ### The formats -/

theorem decodeZ_ok_iff {i j : Instr} {arg : BitVec 32} :
    decodeZ i arg = .ok j ↔ arg = 0 ∧ i = j := by
  unfold decodeZ
  split <;> simp_all

theorem decodeZ_error_iff {i : Instr} {arg : BitVec 32} :
    (∃ e, decodeZ i arg = .error e) ↔ arg ≠ 0 := by
  unfold decodeZ
  split <;> simp_all

theorem decodeB_ok_iff {f : Byte → Instr} {j : Instr} {arg : BitVec 32} :
    decodeB f arg = .ok j ↔ arg.extractLsb' 8 24 = 0 ∧ f (arg.extractLsb' 0 8) = j := by
  unfold decodeB
  split <;> simp_all

theorem decodeB_error_iff {f : Byte → Instr} {arg : BitVec 32} :
    (∃ e, decodeB f arg = .error e) ↔ arg.extractLsb' 8 24 ≠ 0 := by
  unfold decodeB
  split <;> simp_all

theorem isInt32_iff {n : Int} : isInt32 n = true ↔ -2147483648 ≤ n ∧ n ≤ 2147483647 := by
  simp only [isInt32, Bool.and_eq_true, decide_eq_true_eq]

theorem isInt32_toInt (x : BitVec 32) : isInt32 x.toInt = true := by
  have hlow := x.le_toInt
  have hhigh := x.toInt_lt
  rw [isInt32_iff]
  omega

theorem toInt_ofInt_of_isInt32 {n : Int} (hn : isInt32 n = true) : (BitVec.ofInt 32 n).toInt = n := by
  obtain ⟨hlow, hhigh⟩ := isInt32_iff.mp hn
  exact BitVec.toInt_ofInt_eq_self (by decide) hlow (by omega)

/-! ### The decoder -/

/-- What the decoder does with each opcode: its format and the command, or reserved (R76, R79, R86). -/
theorem decode_cases (w : CmdWord) :
    (opField w ∈ [1#8, 2#8, 3#8, 5#8, 8#8] ∧
      ∃ i : Instr, (i.wf = true ∧ i.opcode = opField w ∧ i.arg = 0) ∧
        decode w = decodeZ i (argField w)) ∨
    (opField w ∈ [4#8, 7#8] ∧
      ∃ f : Byte → Instr, (∀ b, (f b).wf = true ∧ (f b).opcode = opField w ∧ (f b).arg = 0#24 ++ b) ∧
        decode w = decodeB f (argField w)) ∨
    (opField w = 6#8 ∧ decode w = .ok (.begin (argField w).toInt)) ∨
    ((opField w = 0 ∨ 9 ≤ (opField w).toNat) ∧ decode w = .error .opcode) := by
  unfold decode
  generalize opField w = op
  generalize argField w = arg
  dsimp only
  split_ifs with h1 h2 h3 h4 h5 h6 h7 h8
  · subst h1; exact .inl ⟨by decide, .init, ⟨rfl, rfl, rfl⟩, rfl⟩
  · subst h2; exact .inl ⟨by decide, .isEmpty, ⟨rfl, rfl, rfl⟩, rfl⟩
  · subst h3; exact .inl ⟨by decide, .isFull, ⟨rfl, rfl, rfl⟩, rfl⟩
  · subst h4; exact .inr (.inl ⟨by decide, .put, fun _ => ⟨rfl, rfl, rfl⟩, rfl⟩)
  · subst h5; exact .inl ⟨by decide, .get, ⟨rfl, rfl, rfl⟩, rfl⟩
  · subst h6; exact .inr (.inr (.inl ⟨rfl, rfl⟩))
  · subst h7; exact .inr (.inl ⟨by decide, .emit, fun _ => ⟨rfl, rfl, rfl⟩, rfl⟩)
  · subst h8; exact .inl ⟨by decide, .drain, ⟨rfl, rfl, rfl⟩, rfl⟩
  · have hrange : op = 0 ∨ 9 ≤ op.toNat := by bv_omega
    exact .inr (.inr (.inr ⟨hrange, rfl⟩))

/-- Settles O1: each word evaluated. -/
theorem specWordsDecode : Obligations.SpecWordsDecode :=
  ⟨rfl, rfl, rfl, rfl, rfl, rfl, rfl, rfl, rfl, rfl, rfl, rfl, rfl, rfl⟩

/-- Settles O2: the opcode of `encode i` selects its format's branch, whose argument is read back. -/
theorem decodeOfEncodeIsTheCommand : Obligations.DecodeOfEncodeIsTheCommand := by
  intro i hi
  have hB : ∀ (f : Byte → Instr) (b : Byte), decodeB f (0#24 ++ b) = .ok (f b) := fun f b =>
    decodeB_ok_iff.mpr ⟨argB_high b, congrArg f (argB_low b)⟩
  simp only [decode, opField_encode, argField_encode]
  cases i with
  | init | isEmpty | isFull | get | drain => rfl
  | put b => exact hB .put b
  | emit b => exact hB .emit b
  | begin n => exact congrArg (fun k => Except.ok (Instr.begin k)) (toInt_ofInt_of_isInt32 hi)

/-- Settles O3: in each format the fields of the word are the command's own. -/
theorem encodeOfDecodeIsTheWord : Obligations.EncodeOfDecodeIsTheWord := by
  intro w i hw
  obtain ⟨-, j, ⟨hwf, hop, harg⟩, hdec⟩ | ⟨-, f, hf, hdec⟩ | ⟨hop, hdec⟩ | ⟨-, hdec⟩ := decode_cases w <;>
    rw [hdec] at hw
  · obtain ⟨hzero, rfl⟩ := decodeZ_ok_iff.mp hw
    exact ⟨hwf, encode_eq_of_fields hop.symm (hzero.trans harg.symm)⟩
  · obtain ⟨hhigh, rfl⟩ := decodeB_ok_iff.mp hw
    obtain ⟨hwf, hop, harg⟩ := hf ((argField w).extractLsb' 0 8)
    exact ⟨hwf, encode_eq_of_fields hop.symm ((argB_of_high hhigh).symm.trans harg.symm)⟩
  · cases hw
    exact ⟨isInt32_toInt _, encode_eq_of_fields hop BitVec.ofInt_toInt.symm⟩
  · cases hw

theorem decode_ok_iff {w : CmdWord} {i : Instr} :
    decode w = .ok i ↔ i.wf = true ∧ encode i = w := by
  refine ⟨encodeOfDecodeIsTheWord w i, ?_⟩
  rintro ⟨hi, rfl⟩
  exact decodeOfEncodeIsTheCommand i hi

/-- The reserved words: of no command's opcode, or with a bit set that its format wants zero (R79). -/
theorem decode_error_iff (w : CmdWord) :
    (∃ e, decode w = .error e) ↔
      opField w = 0 ∨ 9 ≤ (opField w).toNat ∨
      (opField w ∈ [1#8, 2#8, 3#8, 5#8, 8#8] ∧ argField w ≠ 0) ∨
      (opField w ∈ [4#8, 7#8] ∧ (argField w).extractLsb' 8 24 ≠ 0) := by
  obtain ⟨hop, j, -, hdec⟩ | ⟨hop, f, -, hdec⟩ | ⟨hop, hdec⟩ | ⟨hop, hdec⟩ := decode_cases w <;>
    rw [hdec]
  · obtain hop | hop | hop | hop | hop := by simpa using hop
    all_goals simp [hop, decodeZ_error_iff]
  · obtain hop | hop := by simpa using hop
    all_goals simp [hop, decodeB_error_iff]
  · simp [hop]
  · obtain hop | hop := hop <;> simp [hop]

/-! ### The opcode map -/

theorem BitVec_append_inj {n m : Nat} {a c : BitVec n} {b d : BitVec m} :
    a ++ b = c ++ d ↔ a = c ∧ b = d := by
  refine ⟨fun h => ⟨?_, ?_⟩, fun ⟨hac, hbd⟩ => hac ▸ hbd ▸ rfl⟩
  · simpa only [BitVec_append_high] using congrArg (·.extractLsb' m n) h
  · simpa only [BitVec_append_low] using congrArg (·.extractLsb' 0 m) h

/-- A row whose mask keeps the opcode is selected by its opcode and by the kept bits of the argument. -/
theorem fields_of_selects {name : String} {op : BitVec 8} {mask value : BitVec 32} {w : CmdWord}
    (h : OpcodeRow.selects ⟨name, BitVec.allOnes 8 ++ mask, op ++ value⟩ w = true) :
    opField w = op ∧ argField w &&& mask = value := by
  have hw : (opField w ++ argField w : BitVec (8 + 32)) = w :=
    BitVec_high_append_low (n := 8) (m := 32) w
  have hmasked : (opField w ++ argField w : BitVec (8 + 32)) &&& (BitVec.allOnes 8 ++ mask) =
      op ++ value := by
    rw [hw]
    exact eq_of_beq h
  rw [BitVec.and_append, BitVec.and_allOnes] at hmasked
  exact BitVec_append_inj.mp hmasked

/-- A row of format Z is selected by its command's word only. -/
theorem decode_of_selects_Z {name : String} {i : Instr} {w : CmdWord} (hi : i.wf = true)
    (h : OpcodeRow.selects ⟨name, BitVec.allOnes 40, encode i⟩ w = true) : decode w = .ok i := by
  have hw : w &&& BitVec.allOnes 40 = encode i := eq_of_beq h
  rw [BitVec.and_allOnes] at hw
  exact decode_ok_iff.mpr ⟨hi, hw.symm⟩

/-- A row of format B is selected by the words of its command for some byte. -/
theorem decode_of_selects_B {name : String} {f : Byte → Instr} {op : BitVec 8} {w : CmdWord}
    (hf : ∀ b, (f b).wf = true ∧ (f b).opcode = op ∧ (f b).arg = 0#24 ++ b)
    (h : OpcodeRow.selects ⟨name, BitVec.allOnes 8 ++ (BitVec.allOnes 24 ++ 0#8), op ++ 0#32⟩ w = true) :
    ∃ b, decode w = .ok (f b) := by
  obtain ⟨hop, harg⟩ := fields_of_selects h
  have hx : ((argField w).extractLsb' 8 24 ++ (argField w).extractLsb' 0 8 : BitVec (24 + 8)) =
      argField w := BitVec_high_append_low (n := 24) (m := 8) _
  have hhigh : (argField w).extractLsb' 8 24 = 0#24 := by
    rw [← hx, BitVec.and_append, BitVec.and_allOnes] at harg
    exact ((BitVec_append_inj (c := 0#24) (d := 0#8)).mp harg).1
  obtain ⟨hwf, hopf, hargf⟩ := hf ((argField w).extractLsb' 0 8)
  exact ⟨_, decode_ok_iff.mpr ⟨hwf, encode_eq_of_fields (hop.trans hopf.symm)
    ((argB_of_high hhigh).symm.trans hargf.symm)⟩⟩

/-- A row of format W is selected by the words of BEGIN. -/
theorem decode_of_selects_W {name : String} {w : CmdWord}
    (h : OpcodeRow.selects ⟨name, BitVec.allOnes 8 ++ 0#32, 0x06#8 ++ 0#32⟩ w = true) :
    ∃ n, decode w = .ok (.begin n) := by
  obtain ⟨hop, -⟩ := fields_of_selects h
  exact ⟨_, decode_ok_iff.mpr ⟨isInt32_toInt _, encode_eq_of_fields hop BitVec.ofInt_toInt.symm⟩⟩

theorem decode_of_selects {r : OpcodeRow} {w : CmdWord} (hr : r ∈ opcodeTable)
    (h : r.selects w = true) : ∃ i, decode w = .ok i ∧ r.mnemonic = i.mnemonic := by
  simp only [opcodeTable, List.mem_cons, List.not_mem_nil, or_false] at hr
  obtain rfl | rfl | rfl | rfl | rfl | rfl | rfl | rfl := hr
  · exact ⟨.init, decode_of_selects_Z rfl h, rfl⟩
  · exact ⟨.isEmpty, decode_of_selects_Z rfl h, rfl⟩
  · exact ⟨.isFull, decode_of_selects_Z rfl h, rfl⟩
  · obtain ⟨b, hb⟩ := decode_of_selects_B (f := .put) (fun _ => ⟨rfl, rfl, rfl⟩) h
    exact ⟨_, hb, rfl⟩
  · exact ⟨.get, decode_of_selects_Z rfl h, rfl⟩
  · obtain ⟨n, hn⟩ := decode_of_selects_W h
    exact ⟨_, hn, rfl⟩
  · obtain ⟨b, hb⟩ := decode_of_selects_B (f := .emit) (fun _ => ⟨rfl, rfl, rfl⟩) h
    exact ⟨_, hb, rfl⟩
  · exact ⟨.drain, decode_of_selects_Z rfl h, rfl⟩

/-- Every command's word selects a row of the command's own name. -/
theorem encode_selects_row (i : Instr) :
    ∃ r ∈ opcodeTable, r.mnemonic = i.mnemonic ∧ r.selects (encode i) = true := by
  cases i with
  | init => exact Laws.Encoding.init
  | isEmpty => exact Laws.Encoding.isEmpty
  | isFull => exact Laws.Encoding.isFull
  | put b => exact Laws.Encoding.put b
  | get => exact Laws.Encoding.get
  | begin n => exact Laws.Encoding.begin n
  | emit b => exact Laws.Encoding.emit b
  | drain => exact Laws.Encoding.drain

theorem opcodeTable_mnemonic_inj :
    ∀ r ∈ opcodeTable, ∀ r' ∈ opcodeTable, r.mnemonic = r'.mnemonic → r = r' := by decide

/-- A row of the map is selected exactly by the words of the command it names (R76). -/
theorem selects_iff {r : OpcodeRow} {w : CmdWord} (hr : r ∈ opcodeTable) :
    r.selects w = true ↔ ∃ i, decode w = .ok i ∧ r.mnemonic = i.mnemonic := by
  refine ⟨decode_of_selects hr, ?_⟩
  rintro ⟨i, hi, hname⟩
  obtain ⟨-, rfl⟩ := decode_ok_iff.mp hi
  obtain ⟨r', hr', hname', hsel⟩ := encode_selects_row i
  rwa [opcodeTable_mnemonic_inj r hr r' hr' (hname.trans hname'.symm)]

theorem filter_opcodeTable_mnemonic (i : Instr) :
    (opcodeTable.filter fun r => r.mnemonic == i.mnemonic).map (·.mnemonic) = [i.mnemonic] := by
  cases i <;> rfl

/-- A word that decodes selects one row, its command's (R76). -/
theorem selected_of_decode_ok {w : CmdWord} {i : Instr} (hw : decode w = .ok i) :
    (opcodeTable.filter fun r => r.selects w).map (·.mnemonic) = [i.mnemonic] := by
  have hrows : opcodeTable.filter (fun r => r.selects w) =
      opcodeTable.filter (fun r => r.mnemonic == i.mnemonic) :=
    List.filter_congr fun r hr => by
      rw [Bool.eq_iff_iff, selects_iff hr, hw]
      simp
  rw [hrows, filter_opcodeTable_mnemonic]

/-- A reserved word selects no row (R79). -/
theorem selected_of_decode_error {w : CmdWord} {e : Reserved} (hw : decode w = .error e) :
    opcodeTable.filter (fun r => r.selects w) = [] := by
  refine List.filter_eq_nil_iff.mpr fun r hr hsel => ?_
  obtain ⟨i, hi, -⟩ := decode_of_selects hr hsel
  cases hw.symm.trans hi

end Sys2Proof
end

section
/-! SUPPORT. What issuing does around a command's own rule: a reserved word and a print call at the producer's
turn (spec/30_encoding.md R79, R83), the ports (R78), and the responses (R77, R198). -/

namespace Sys2Proof.Machine

/-! ### Reserved words -/

theorem State.issueWord_reserved {s taken : State} {port : Port} {w : CmdWord} {e : Reserved}
    (hw : decode w = .error e) : s.issueWord port w taken = .refused .reservedEncoding := by
  simp only [State.issueWord, hw]

/-- A word about to be issued is issued by the step, on its port. -/
theorem State.step_of_aboutToIssue {s : State} {port : Port} {w : CmdWord}
    (hc : validInstance s.cfg = true) (h : s.aboutToIssue port w) :
    ∃ u taken, step s = State.issueWord u port w taken := by
  cases port <;> obtain ⟨⟨turns, hsched⟩, rest, hq⟩ := h <;> rw [step_settled hc hsched]
  · refine ⟨{ s with sched := turns }, { s with sched := turns, pq := rest }, ?_⟩
    simp only [State.runTurn, State.producerTurn, hq]
    rfl
  · refine ⟨{ s with sched := turns }, { s with sched := turns, cq := rest }, ?_⟩
    simp only [State.runTurn, State.consumerTurn, hq]
    rfl

/-- Settles O4: the rows through the commands they name, the reserved words through the decoder's branches, and
the step through the word it issues. -/
theorem reservedWordsAreRefused : Obligations.ReservedWordsAreRefused := by
  refine ⟨fun w => ?_, decode_error_iff, fun s port w e hc hissue hw => ?_⟩
  · cases hw : decode w with
    | ok i => exact selected_of_decode_ok hw
    | error e => exact congrArg (List.map _) (selected_of_decode_error hw)
  · obtain ⟨u, taken, hstep⟩ := State.step_of_aboutToIssue hc hissue
    rw [hstep, State.issueWord_reserved hw]

/-! ### Print calls -/

theorem State.producerTurn_call {s : State} {c : Call} {rest : List Request} {bytes : List Byte}
    (hq : s.pq = .call c :: rest) (hb : callBytes c = .ok bytes) :
    s.producerTurn = .next (s.setPq (emitWords bytes ++ rest)) := by
  simp only [State.producerTurn, hq, hb]

theorem State.producerTurn_call_refused {s : State} {c : Call} {rest : List Request} {r : Refusal}
    (hq : s.pq = .call c :: rest) (hb : callBytes c = .error r) : s.producerTurn = .refused r := by
  simp only [State.producerTurn, hq, hb]

/-- A call is refused only for its float (R184). -/
theorem callBytes_error {c : Call} {r : Refusal} (hb : callBytes c = .error r) : r = .floatRange := by
  cases c with
  | print _ | println _ | printInt _ | printIntLn _ => cases hb
  | printFloat v dp | printFloatLn v dp =>
    simp only [callBytes] at hb
    split at hb
    · cases hb; rfl
    · cases hb

/-- The word of EMIT, its byte in the low bits (R74). -/
theorem encode_emit (b : Byte) : encode (.emit b) = 0x07000000#32 ++ b :=
  (BitVec.append_assoc (x₁ := 0x07#8) (x₂ := 0#24) (x₃ := b)).symm

/-- Settles O8: the settled turn is the producer's, whose call is expanded or refused. -/
theorem stepExpandsAPrintCall : Obligations.StepExpandsAPrintCall := by
  intro s c rest turns hc hsched hq
  have hturn : step s = State.producerTurn { s with sched := turns } := step_settled hc hsched
  refine ⟨fun bytes hb => ?_, fun r hb => ?_⟩
  · rw [hturn, State.producerTurn_call (s := { s with sched := turns }) hq hb]
    simp only [emitWords, encode_emit]
    rfl
  · obtain rfl := callBytes_error hb
    exact ⟨rfl, hturn.trans (State.producerTurn_call_refused (s := { s with sched := turns }) hq hb)⟩

/-! ### Ports -/

/-- A rule that does not answer `wrongPort` is refused with it exactly on the port that does not accept
the command. -/
theorem State.onPort_wrongPort_iff {s : State} {i : Instr} {rule : Result}
    (hc : validInstance s.cfg = true) (hrule : rule ≠ .refused .wrongPort) :
    s.onPort i rule = .refused .wrongPort ↔ accepts i s.issuer = false := by
  rw [State.onPort, if_pos hc]
  cases accepts i s.issuer with
  | true => simpa using hrule
  | false => simp

theorem State.withView_ne_refused {s : State} {rule : Nat → Nat → Result} {r : Refusal}
    (hrule : ∀ h t, rule h t ≠ .refused r) : s.withView rule ≠ .refused r := by
  unfold State.withView
  split
  · exact hrule _ _
  · exact nofun

/-- A command is refused with `wrongPort` exactly on the port that does not accept it (R78). -/
theorem exec_wrongPort_iff {s : State} {i : Instr} (hc : validInstance s.cfg = true) :
    exec i s = .refused .wrongPort ↔ accepts i s.issuer = false := by
  cases i <;> refine State.onPort_wrongPort_iff hc ?_
  case init => exact nofun
  case isEmpty | isFull => exact State.withView_ne_refused fun h t => nofun
  case put | get | emit => exact State.withView_ne_refused fun h t => by split <;> exact nofun
  case begin => split <;> exact nofun
  case drain =>
    split
    · exact State.withView_ne_refused fun h t => by split <;> exact nofun
    · exact nofun

/-- Settles O10: the commands that each port does not accept. -/
theorem portsAcceptTheirOwnCommands : Obligations.PortsAcceptTheirOwnCommands := by
  intro s i hc
  refine ⟨fun hp => ?_, fun hp => ?_⟩ <;> rw [exec_wrongPort_iff hc, hp] <;>
    cases i <;> simp [accepts]

/-! ### Responses -/

@[simp] theorem respFlag_respWord (f : Bool) (d : Byte) : respFlag (respWord f d) = f := by
  rw [respFlag, respWord, BitVec.getLsbD_append]
  simp

@[simp] theorem respData_respWord (f : Bool) (d : Byte) : respData (respWord f d) = d :=
  BitVec_append_low (BitVec.ofBool f) d

/-- The issuing side has one view. -/
theorem State.issuer_view_unique {s : State} {port : Port} {h t h' t' : Nat} (hp : s.issuer = port)
    (hv : s.view s.issuer = .ok (h, t)) (hv' : s.view port = .ok (h', t')) : h = h' ∧ t = t' := by
  simpa [hp, hv', eq_comm] using hv

/-- PUT and EMIT answer whether the view had room (R94, R112). -/
theorem exec_store_resp {s s' : State} {h t : Nat} {b : Byte} {i : Instr}
    (hv : s.view s.issuer = .ok (h, t)) (hi : i = .put b ∨ i = .emit b) (hx : exec i s = .next s') :
    s'.resp = some (respWord (!fullFlag s.cfg.C h t) 0) := by
  obtain rfl | rfl := hi
  · obtain ⟨hp, h', t', hv', hcase⟩ := exec_put_next hx
    obtain ⟨rfl, rfl⟩ : h = h' ∧ t = t' := State.issuer_view_unique hp hv hv'
    obtain ⟨hfull, rfl⟩ | ⟨hroom, -, rfl⟩ := hcase
    · rw [fullFlag_iff.mpr hfull]
      rfl
    · rw [show fullFlag s.cfg.C h t = false from beq_false_of_ne hroom]
      rfl
  · obtain ⟨hp, h', t', u, hv', -, rfl⟩ := exec_emit_next hx
    obtain ⟨rfl, rfl⟩ : h = h' ∧ t = t' := State.issuer_view_unique hp hv hv'
    rw [show fullFlag s.cfg.C h t = decide (inc s.cfg.C h = t) from rfl, ← decide_not]
    rfl

/-- GET and an enabled DRAIN answer with no byte on an empty view, else with the byte in slot `t`
(R95, R115). -/
theorem exec_take_resp {s s' : State} {h t : Nat} {i : Instr}
    (hv : s.view s.issuer = .ok (h, t)) (hi : i = .get ∨ (i = .drain ∧ s.drainEnabled = true))
    (hx : exec i s = .next s') :
    (h = t ∧ s'.resp = some (respWord false 0)) ∨
      (h ≠ t ∧ ∃ b, Memory.read s.storage t = some b ∧ s'.resp = some (respWord true b)) := by
  obtain rfl | ⟨rfl, hen⟩ := hi
  · obtain ⟨hc, h', t', hv', hcase⟩ := exec_get_next hx
    obtain ⟨rfl, rfl⟩ : h = h' ∧ t = t' := State.issuer_view_unique hc hv hv'
    obtain ⟨hempty, rfl⟩ | ⟨hbyte, -, b, hb, rfl⟩ := hcase
    · exact .inl ⟨hempty, rfl⟩
    · exact .inr ⟨hbyte, b, hb, rfl⟩
  · obtain ⟨hc, ⟨hoff, -⟩ | ⟨-, h', t', hv', hcase⟩⟩ := exec_drain_next hx
    · simp [hen] at hoff
    · obtain ⟨rfl, rfl⟩ : h = h' ∧ t = t' := State.issuer_view_unique hc hv hv'
      obtain ⟨hempty, rfl⟩ | ⟨hbyte, -, b, hb, rfl⟩ := hcase
      · exact .inl ⟨hempty, rfl⟩
      · exact .inr ⟨hbyte, b, hb, rfl⟩

/-- Settles O27: the flag of the response says which outcome it was, and its data the byte taken. -/
theorem responsesCarryTheOutcome : Obligations.ResponsesCarryTheOutcome := by
  intro s s' h t hv
  refine ⟨fun i b hi hx => ?_, fun hx => ?_, fun hen hx => ?_⟩
  · rw [exec_store_resp hv hi hx]
    obtain rfl | rfl := hi <;> cases hfull : fullFlag s.cfg.C h t <;> simp [outcomeCode]
  · obtain ⟨hempty, hr⟩ | ⟨hbyte, b, hb, hr⟩ := exec_take_resp hv (.inl rfl) hx
    · simp [hr, hempty, outcomeCode]
    · simp [hr, hbyte, hb, outcomeCode]
  · obtain ⟨hempty, hr⟩ | ⟨hbyte, b, hb, hr⟩ := exec_take_resp hv (.inr ⟨rfl, hen⟩) hx
    · simp [hr, hempty, outcomeCode]
    · simp [hr, hbyte, hb, outcomeCode]

end Sys2Proof.Machine
end

section
/-! SUPPORT. The buffer's commands run forward (spec/40_ringbuffer_ops.md R91 to R95): once the checks pass, what
each answers on a view, and from it the statements on INIT, IS_EMPTY, IS_FULL, PUT and GET. -/

namespace Sys2Proof.Machine

/-! ### Responses as numbers -/

/-- A flag's answer (R77). -/
theorem respWord_decide (p : Prop) [Decidable p] :
    respWord (decide p) 0 = if p then 0x100#9 else 0x000#9 := by
  by_cases hp : p
  · rw [decide_eq_true hp, if_pos hp]; rfl
  · rw [decide_eq_false hp, if_neg hp]; rfl

/-- A taken byte's answer (R77). -/
theorem respWord_true (b : Byte) : respWord true b = 0x100#9 + b.setWidth 9 := by
  have hb : b.toNat < 2 ^ 8 := b.isLt
  refine BitVec.eq_of_toNat_eq ?_
  have happ : (respWord true b).toNat = 1 * 2 ^ 8 + b.toNat := by
    rw [respWord, BitVec.toNat_append, ← Nat.shiftLeft_add_eq_or_of_lt hb, Nat.shiftLeft_eq]
    rfl
  rw [happ, BitVec.toNat_add, BitVec.toNat_setWidth]
  simp only [BitVec.toNat_ofNat]
  omega

/-! ### The operations on a view -/

theorem State.ringPut_full {s : State} {h t : Nat} (hfull : inc s.cfg.C h = t) (b : Byte) :
    s.ringPut h t b = .ok (s.logEvent (.drop b), false) := by
  rw [State.ringPut, if_pos (fullFlag_iff.mpr hfull)]

theorem State.ringPut_room {s : State} {h t : Nat} (hroom : inc s.cfg.C h ≠ t) (hlt : h < s.cfg.C)
    (b : Byte) : s.ringPut h t b =
      .ok (((s.setStorage (Memory.write s.storage h b)).setHead (inc s.cfg.C h)).logEvent (.put b), true) := by
  rw [State.ringPut, if_neg (mt fullFlag_iff.mp hroom), State.storeAtHead, if_pos hlt]

theorem State.ringGet_empty (s : State) (t : Nat) : s.ringGet t t = .ok (s, none) := by
  rw [State.ringGet, if_pos (emptyFlag_iff.mpr rfl)]

theorem State.ringGet_byte {s : State} {h t : Nat} {b : Byte} (hbyte : h ≠ t) (hlt : t < s.cfg.C)
    (hb : Memory.read s.storage t = some b) :
    s.ringGet h t = .ok ((s.setTail (inc s.cfg.C t)).logEvent (.get b), some b) := by
  rw [State.ringGet, if_neg (mt emptyFlag_iff.mp hbyte), State.loadAtTail, if_pos hlt, hb]

/-! ### The commands once the checks pass -/

/-- On its port and with a view, a command is its rule (R90). -/
theorem State.checks_eq {s : State} {i : Instr} {rule : Nat → Nat → Result} {h t : Nat}
    (hc : validInstance s.cfg = true) (ha : accepts i s.issuer = true)
    (hv : s.view s.issuer = .ok (h, t)) : s.onPort i (s.withView rule) = rule h t :=
  (State.onPort_eq hc ha).trans (State.withView_eq hv)

/-- PUT answers whether its byte was stored (R94). -/
theorem exec_put_of_ringPut {s s' : State} {h t : Nat} {b : Byte} {stored : Bool}
    (hc : validInstance s.cfg = true) (hp : s.issuer = .p) (hv : s.view .p = .ok (h, t))
    (hr : s.ringPut h t b = .ok (s', stored)) :
    exec (.put b) s = .next (s'.respond (respWord stored 0)) := by
  refine (State.checks_eq hc (hp ▸ rfl) (hp.symm ▸ hv)).trans ?_
  rw [hr]

theorem exec_put_full {s : State} {h t : Nat} (hc : validInstance s.cfg = true) (hp : s.issuer = .p)
    (hv : s.view .p = .ok (h, t)) (hfull : inc s.cfg.C h = t) (b : Byte) :
    exec (.put b) s = .next ((s.logEvent (.drop b)).respond (respWord false 0)) :=
  exec_put_of_ringPut hc hp hv (State.ringPut_full hfull b)

theorem exec_put_room {s : State} {h t : Nat} (hc : validInstance s.cfg = true) (hp : s.issuer = .p)
    (hv : s.view .p = .ok (h, t)) (hroom : inc s.cfg.C h ≠ t) (hlt : h < s.cfg.C) (b : Byte) :
    exec (.put b) s = .next ((((s.setStorage (Memory.write s.storage h b)).setHead
      (inc s.cfg.C h)).logEvent (.put b)).respond (respWord true 0)) :=
  exec_put_of_ringPut hc hp hv (State.ringPut_room hroom hlt b)

theorem exec_get_empty {s : State} {t : Nat} (hc : validInstance s.cfg = true) (hp : s.issuer = .c)
    (hv : s.view .c = .ok (t, t)) : exec .get s = .next (s.respond (respWord false 0)) := by
  refine (State.checks_eq hc (hp ▸ rfl) (hp.symm ▸ hv)).trans ?_
  rw [State.ringGet_empty]

theorem exec_get_byte {s : State} {h t : Nat} {b : Byte} (hc : validInstance s.cfg = true)
    (hp : s.issuer = .c) (hv : s.view .c = .ok (h, t)) (hbyte : h ≠ t) (hlt : t < s.cfg.C)
    (hb : Memory.read s.storage t = some b) :
    exec .get s = .next (((s.setTail (inc s.cfg.C t)).logEvent (.get b)).respond (respWord true b)) := by
  refine (State.checks_eq hc (hp ▸ rfl) (hp.symm ▸ hv)).trans ?_
  rw [State.ringGet_byte hbyte hlt hb]

/-! ### The statements on the five commands -/

/-- A synchroniser that INIT has set shows 0 (R140). -/
theorem seenThrough_replicate {C S i : Nat} (hS : S ≠ 0) (hi : i < C) :
    seenThrough C (List.replicate S (some (enc C i))) = .ok i := by
  obtain ⟨n, rfl⟩ := Nat.exists_eq_succ_of_ne_zero hS
  rw [List.replicate_succ', seenThrough_concat _ (dec_enc hi)]

/-- After INIT both sides see an empty buffer at 0, with stages or without. -/
theorem State.view_ringInit {s : State} (hc : validInstance s.cfg = true) (port : Port) :
    s.ringInit.view port = .ok (0, 0) := by
  by_cases hS : s.cfg.S = 0
  · exact State.view_exact (s := s.ringInit) rfl rfl hS port
  · have hseen := seenThrough_replicate hS (validInstance_pos hc)
    cases port with
    | p => exact State.view_p_seen (s := s.ringInit) rfl rfl hS hseen
    | c => exact State.view_c_seen (s := s.ringInit) rfl rfl hS hseen

/-- Settles O19: the port accepts INIT, which needs no view. -/
theorem initResetsTheBuffer : Obligations.InitResetsTheBuffer := by
  intro s hc hp
  refine ⟨s.ringInit.respond (respWord false 0), ?_, rfl, State.view_ringInit hc .p,
    State.view_ringInit hc .c⟩
  exact State.onPort_eq hc (hp ▸ rfl)

/-- Settles O20: both ports accept IS_EMPTY. -/
theorem isEmptyAnswersFromTheView : Obligations.IsEmptyAnswersFromTheView := by
  intro s h t hc hv
  rw [← respWord_decide]
  exact State.checks_eq hc rfl hv

/-- Settles O21: both ports accept IS_FULL. -/
theorem isFullAnswersFromTheView : Obligations.IsFullAnswersFromTheView := by
  intro s h t hc hv
  rw [← respWord_decide]
  exact State.checks_eq hc rfl hv

/-- Settles O22: a full view drops, another stores in the slot at `head`. -/
theorem putStoresOrDrops : Obligations.PutStoresOrDrops := by
  intro s h t b hc hp hv
  refine ⟨fun hfull => exec_put_full hc hp hv hfull b, fun hroom hlt => ?_⟩
  exact ⟨_, exec_put_room hc hp hv hroom hlt b, Memory.read_write_same _ h b,
    fun a ha => Memory.read_write_other _ h a b ha⟩

/-- Settles O23: an empty view takes nothing, another the byte in the slot at `tail`. -/
theorem getTakesTheOldestOrNone : Obligations.GetTakesTheOldestOrNone := by
  intro s h t hc hp hv
  refine ⟨?_, fun b hbyte hlt hb => ?_⟩
  · rintro rfl
    exact exec_get_empty hc hp hv
  · rw [← respWord_true]
    exact exec_get_byte hc hp hv hbyte hlt hb

end Sys2Proof.Machine
end

section
/-! SUPPORT. The commands' frames (spec/40_ringbuffer_ops.md R91 to R95, spec/41_control_ops.md R111 to R115): what
PUT and EMIT, and GET and DRAIN, have in common, said once for each pair, and the statements that follow. -/

namespace Sys2Proof.Machine

/-! ### INIT's update, the fields it leaves -/

@[simp] theorem State.ringInit_txen (s : State) : s.ringInit.txen = s.txen := rfl
@[simp] theorem State.ringInit_divisor (s : State) : s.ringInit.divisor = s.divisor := rfl
@[simp] theorem State.ringInit_frame (s : State) : s.ringInit.frame = s.frame := rfl
@[simp] theorem State.ringInit_issuer (s : State) : s.ringInit.issuer = s.issuer := rfl
@[simp] theorem State.ringInit_pq (s : State) : s.ringInit.pq = s.pq := rfl
@[simp] theorem State.ringInit_cq (s : State) : s.ringInit.cq = s.cq := rfl
@[simp] theorem State.ringInit_sched (s : State) : s.ringInit.sched = s.sched := rfl
@[simp] theorem State.ringInit_tick (s : State) : s.ringInit.tick = s.tick := rfl

/-! ### PUT and EMIT -/

/-- PUT and EMIT store in a view with room, and else leave storage and `head` (R94, R112). -/
theorem exec_store_cases {s s' : State} {i : Instr} {b : Byte} (hi : i = .put b ∨ i = .emit b)
    (hx : exec i s = .next s') :
    ∃ h t, s.view .p = .ok (h, t) ∧
      ((inc s.cfg.C h = t ∧ s'.storage = s.storage ∧ s'.head = s.head) ∨
        (inc s.cfg.C h ≠ t ∧ h < s.cfg.C ∧ s'.storage = Memory.write s.storage h b ∧
          s'.head = some (inc s.cfg.C h))) := by
  obtain rfl | rfl := hi
  · obtain ⟨-, h, t, hv, ⟨hfull, rfl⟩ | ⟨hroom, hlt, rfl⟩⟩ := exec_put_next hx
    · exact ⟨h, t, hv, .inl ⟨hfull, rfl, rfl⟩⟩
    · exact ⟨h, t, hv, .inr ⟨hroom, hlt, rfl, rfl⟩⟩
  · obtain ⟨-, h, t, u, hv, hu, rfl⟩ := exec_emit_next hx
    refine ⟨h, t, hv, ?_⟩
    obtain ⟨hfull, rfl⟩ | ⟨hroom, hlt, rfl⟩ := hu
    · refine .inl ⟨hfull, ?_⟩
      split <;> simp
    · refine .inr ⟨hroom, hlt, ?_⟩
      split <;> simp

/-- PUT and EMIT write storage, `head`, `armed`, the trace and the response only. -/
theorem exec_store_frame {s s' : State} {i : Instr} {b : Byte} (hi : i = .put b ∨ i = .emit b)
    (hx : exec i s = .next s') :
    s' = { s with
      storage := s'.storage, head := s'.head, armed := s'.armed, trace := s'.trace, resp := s'.resp } := by
  obtain rfl | rfl := hi
  · obtain ⟨-, h, t, -, ⟨-, rfl⟩ | ⟨-, -, rfl⟩⟩ := exec_put_next hx <;> rfl
  · obtain ⟨-, h, t, u, -, hu, hs'⟩ := exec_emit_next hx
    have hframe : u = { s with gie := u.gie, storage := u.storage, head := u.head, trace := u.trace } := by
      obtain ⟨-, rfl⟩ | ⟨-, -, rfl⟩ := hu <;> rfl
    rw [hs', hframe]
    split <;> rfl

/-! ### GET and DRAIN -/

/-- GET and DRAIN take the byte at `tail` in a view that is not empty, and else leave `tail` (R95, R115). -/
theorem exec_take_cases {s s' : State} {i : Instr} (hi : i = .get ∨ i = .drain)
    (hx : exec i s = .next s') :
    s'.tail = s.tail ∨ ∃ h t b, s.view .c = .ok (h, t) ∧ h ≠ t ∧ Memory.read s.storage t = some b ∧
      s'.tail = some (inc s.cfg.C t) ∧ s'.resp = some (respWord true b) := by
  obtain rfl | rfl := hi
  · obtain ⟨-, h, t, hv, ⟨-, rfl⟩ | ⟨hbyte, -, b, hb, rfl⟩⟩ := exec_get_next hx
    · exact .inl rfl
    · exact .inr ⟨h, t, b, hv, hbyte, hb, rfl, rfl⟩
  · obtain ⟨-, ⟨-, rfl⟩ | ⟨-, h, t, hv, ⟨-, rfl⟩ | ⟨hbyte, -, b, hb, rfl⟩⟩⟩ := exec_drain_next hx
    · exact .inl rfl
    · exact .inl rfl
    · exact .inr ⟨h, t, b, hv, hbyte, hb, rfl, rfl⟩

/-- GET and DRAIN write `tail`, `armed`, the output register, the trace and the response only. -/
theorem exec_take_frame {s s' : State} {i : Instr} (hi : i = .get ∨ i = .drain)
    (hx : exec i s = .next s') :
    s' = { s with
      tail := s'.tail, armed := s'.armed, txfree := s'.txfree, txreg := s'.txreg, trace := s'.trace,
      resp := s'.resp } := by
  obtain rfl | rfl := hi
  · obtain ⟨-, h, t, -, ⟨-, rfl⟩ | ⟨-, -, b, -, rfl⟩⟩ := exec_get_next hx <;> rfl
  · obtain ⟨-, ⟨-, rfl⟩ | ⟨-, h, t, -, ⟨-, rfl⟩ | ⟨-, -, b, -, rfl⟩⟩⟩ := exec_drain_next hx <;> rfl

/-! ### The statements on the frames -/

/-- Settles O32: INIT's update touches no slot and no device field, and BEGIN adds the configuration to it. -/
theorem initAndBeginFrame : Obligations.InitAndBeginFrame := by
  rintro s s' i (rfl | ⟨n, rfl⟩) hx
  · obtain ⟨-, rfl⟩ := exec_init_next hx
    simp
  · obtain ⟨-, -, rfl⟩ := exec_begin_next hx
    simp

/-- Settles O33: a flag read only responds. -/
theorem flagReadsFrame : Obligations.FlagReadsFrame := by
  rintro s s' i (rfl | rfl) hx
  · obtain ⟨r, rfl⟩ := exec_isEmpty_next hx
    exact ⟨fun _ => rfl, rfl⟩
  · obtain ⟨r, rfl⟩ := exec_isFull_next hx
    exact ⟨fun _ => rfl, rfl⟩

/-- Settles O34: storage and `head` by the two ways a store can go, `armed` by who writes it, the other fields
by the frame. -/
theorem putAndEmitFrame : Obligations.PutAndEmitFrame := by
  intro s s' i b hi hx
  obtain ⟨h, t, hv, hcase⟩ := exec_store_cases hi hx
  have hh : s.head = some h := State.view_p_head hv
  have hslots : ∀ a, s.head ≠ some a → Memory.read s'.storage a = Memory.read s.storage a := by
    intro a ha
    obtain ⟨-, hst, -⟩ | ⟨-, -, hst, -⟩ := hcase <;> rw [hst]
    exact Memory.read_write_other _ h a b fun hah => ha (hah ▸ hh)
  have hstore : ∃ h t, s.view .p = .ok (h, t) ∧ s.head = some h ∧
      (fullFlag s.cfg.C h t = true → s'.storage = s.storage ∧ s'.head = s.head) ∧
      (fullFlag s.cfg.C h t = false → s'.head = some (inc s.cfg.C h)) := by
    refine ⟨h, t, hv, hh, ?_⟩
    obtain ⟨hfull, hkept⟩ | ⟨hroom, -, -, hnew⟩ := hcase
    · exact ⟨fun _ => hkept, fun hf => absurd hfull (ne_of_beq_false hf)⟩
    · exact ⟨fun hf => absurd (fullFlag_iff.mp hf) hroom, fun _ => hnew⟩
  have harmed : (i = .put b → s'.armed = s.armed) ∧ (s.armed = true → s'.armed = true) := by
    obtain hsame | ⟨hon, -, ⟨b', rfl⟩, -⟩ | ⟨-, rfl, -⟩ := exec_armed hx
    · exact ⟨fun _ => hsame, hsame.trans⟩
    · exact ⟨nofun, fun _ => hon⟩
    · simp at hi
  rw [exec_store_frame hi hx]
  exact ⟨hslots, hstore, rfl, rfl, rfl, rfl, rfl, rfl, rfl, rfl, rfl, rfl, rfl, rfl, rfl, rfl, rfl, rfl,
    harmed⟩

/-- Settles O35: the frame, and that GET leaves the device. -/
theorem getAndDrainFrame : Obligations.GetAndDrainFrame := by
  intro s s' i hi hx
  have hget : i = .get → s'.armed = s.armed ∧ s'.txfree = s.txfree ∧ s'.txreg = s.txreg := by
    rintro rfl
    obtain ⟨-, h, t, -, ⟨-, rfl⟩ | ⟨-, -, b, -, rfl⟩⟩ := exec_get_next hx <;> exact ⟨rfl, rfl, rfl⟩
  rw [exec_take_frame hi hx]
  exact ⟨fun _ => rfl, rfl, rfl, rfl, rfl, rfl, rfl, rfl, rfl, rfl, rfl, rfl, rfl, rfl, rfl, hget⟩

end Sys2Proof.Machine
end

section
/-! SUPPORT. The commands on the queue (spec/10_state.md section 2): a store appends and a take removes, a queue
that is not armed stays (spec/70_reset_and_hazards.md R226), and how many bytes go in
(spec/40_ringbuffer_ops.md R97). -/

namespace Sys2Proof.Machine

/-! ### Appending and removing -/

/-- The queue is read from the parameters, storage and the cursors only. -/
theorem State.queue_congr {s u : State} (hc : u.cfg = s.cfg) (hst : u.storage = s.storage)
    (hh : u.head = s.head) (ht : u.tail = s.tail) : u.queue = s.queue := by
  simp only [State.queue, hc, hst, hh, ht]

/-- A PUT or EMIT that moves `head` found room, and room that is seen is there. -/
theorem exec_store_queue {s s' : State} {i : Instr} {b : Byte} (hs : s.wf = true)
    (hord : s.ringOrdered = true) (hi : i = .put b ∨ i = .emit b) (hx : exec i s = .next s')
    (hmove : s'.head ≠ s.head) : s'.queue = s.queue ++ [some b] := by
  have hcfg : s'.cfg = s.cfg := by rw [exec_store_frame hi hx]
  have htail : s'.tail = s.tail := by rw [exec_store_frame hi hx]
  obtain ⟨h, t', hv, ⟨-, -, hkept⟩ | ⟨hroom, -, hst, hnew⟩⟩ := exec_store_cases hi hx
  · exact absurd hkept hmove
  · have hh := State.view_p_head hv
    obtain ⟨-, t, -, ht, -⟩ := State.view_ok hv
    obtain ⟨hhl, htl⟩ := State.cursors_lt hs hh ht
    have hthere : inc s.cfg.C h ≠ t := State.not_full_of_view hs hord hh ht hv hroom
    rw [← State.queue_store hh ht hhl htl hthere b]
    exact State.queue_congr hcfg hst hnew htail

/-- A GET or DRAIN that moves `tail` saw a byte, and a byte that is seen is there. -/
theorem exec_take_queue {s s' : State} {i : Instr} (hs : s.wf = true) (hord : s.ringOrdered = true)
    (hi : i = .get ∨ i = .drain) (hx : exec i s = .next s') (hmove : s'.tail ≠ s.tail) :
    ∃ b, s.queue = some b :: s'.queue ∧ s'.resp = some (respWord true b) := by
  have hcfg : s'.cfg = s.cfg := by rw [exec_take_frame hi hx]
  have hst : s'.storage = s.storage := by rw [exec_take_frame hi hx]
  have hhead : s'.head = s.head := by rw [exec_take_frame hi hx]
  obtain hkept | ⟨h', t, b, hv, hbyte, hb, hnew, hresp⟩ := exec_take_cases hi hx
  · exact absurd hkept hmove
  · have ht := State.view_c_tail hv
    obtain ⟨h, hh⟩ := State.head_of_view hv
    obtain ⟨hhl, htl⟩ := State.cursors_lt hs hh ht
    have hthere : h ≠ t := State.not_empty_of_view hs hord hh ht hv hbyte
    have hqueue : s'.queue = (s.setTail (inc s.cfg.C t)).queue :=
      State.queue_congr hcfg hst hhead hnew
    refine ⟨b, ?_, hresp⟩
    rw [hqueue, ← hb]
    exact State.queue_take hh ht hhl htl hthere

/-- Settles O50, by the two lemmas above. -/
theorem commandsActOnTheQueue : Obligations.CommandsActOnTheQueue := by
  intro s s' hs hord
  refine ⟨fun i b hi => exec_store_queue hs hord hi, fun i hi hx hmove => ?_⟩
  obtain ⟨b, hqueue, hresp⟩ := exec_take_queue hs hord hi hx hmove
  exact ⟨b, hqueue, by rw [hresp, respWord_true]⟩

/-! ### A queue that is not armed -/

/-- Without synchronisers a store never makes the queue empty. -/
theorem exec_store_keeps_apart {s s' : State} {i : Instr} {b : Byte} (hS : s.cfg.S = 0)
    (hq : s.head ≠ s.tail) (hi : i = .put b ∨ i = .emit b) (hx : exec i s = .next s') :
    s'.head ≠ s'.tail := by
  have htail : s'.tail = s.tail := by rw [exec_store_frame hi hx]
  obtain ⟨h, t, hv, ⟨-, -, hkept⟩ | ⟨hroom, -, -, hnew⟩⟩ := exec_store_cases hi hx
  · rwa [hkept, htail]
  · obtain ⟨-, ht⟩ := State.cursors_of_view hS hv
    rw [hnew, htail, ht]
    exact fun he => hroom (Option.some.inj he)

/-- Settles O47: with the queue not empty no EMIT arms, while it is not armed no DRAIN runs, and a store leaves
the cursors apart. -/
theorem unarmedQueueIsStuck : Obligations.UnarmedQueueIsStuck := by
  intro s s' i _ hS hinit hget hbegin hoff hq hx
  have harmed : s'.armed = false := by
    obtain hsame | ⟨-, -, -, h, hv⟩ | ⟨hoff', -⟩ := exec_armed hx
    · exact hsame.trans hoff
    · obtain ⟨hh, ht⟩ := State.cursors_of_view hS hv
      exact absurd (hh.trans ht.symm) hq
    · exact hoff'
  refine ⟨harmed, ?_⟩
  cases i with
  | init => exact absurd rfl hinit
  | get => exact absurd rfl hget
  | begin n => exact absurd rfl (hbegin n)
  | isEmpty =>
    obtain ⟨r, rfl⟩ := exec_isEmpty_next hx
    exact hq
  | isFull =>
    obtain ⟨r, rfl⟩ := exec_isFull_next hx
    exact hq
  | put b => exact exec_store_keeps_apart hS hq (.inl rfl) hx
  | emit b => exact exec_store_keeps_apart hS hq (.inr rfl) hx
  | drain =>
    obtain ⟨-, ⟨-, rfl⟩ | ⟨hen, -⟩⟩ := exec_drain_next hx
    · exact hq
    · obtain ⟨hon, -⟩ := State.drainEnabled_iff.mp hen
      simp [hoff] at hon

/-! ### Capacity -/

/-- With `head` moved on, the producer still sees the same tail. -/
theorem State.view_p_of_head {s u : State} {h h' t : Nat} (hv : s.view .p = .ok (h, t))
    (hc : u.cfg = s.cfg) (hh : u.head = some h') (ht : u.tail = s.tail) (hts : u.ts = s.ts) :
    u.view .p = .ok (h', t) := by
  obtain ⟨h₀, t₀, -, ht₀, ⟨hS, -, rfl⟩ | ⟨hS, -, -, hseen⟩ | ⟨-, hp, -⟩⟩ := State.view_ok hv
  · exact State.view_exact hh (ht.trans ht₀) (hc ▸ hS) .p
  · exact State.view_p_seen hh (ht.trans ht₀) (hc ▸ hS) (by rw [hc, hts, hseen])
  · cases hp

/-- A producer about to put bytes: it sees `head` at `h` and the tail at `k`. -/
structure State.Filling (s : State) (h k : Nat) : Prop where
  valid : validInstance s.cfg = true
  issuer : s.issuer = .p
  view : s.view .p = .ok (h, k)
  head_lt : h < s.cfg.C
  tail_lt : k < s.cfg.C

/-- One PUT, with room seen: it stores, and the producer is about to put again (R94). -/
theorem State.Filling.put {s : State} {h k : Nat} (hs : s.Filling h k) (hroom : inc s.cfg.C h ≠ k)
    (b : Byte) :
    ∃ u, exec (.put b) s = .next u ∧ u.Filling (inc s.cfg.C h) k ∧ u.cfg = s.cfg ∧ u.tail = s.tail ∧
      u.trace = s.trace ++ [.put b] := by
  refine ⟨_, exec_put_room hs.valid hs.issuer hs.view hroom hs.head_lt b, ?_, rfl, rfl, rfl⟩
  exact ⟨hs.valid, hs.issuer, State.view_p_of_head hs.view rfl rfl rfl rfl, inc_lt hs.head_lt, hs.tail_lt⟩

/-- While the producer sees room for them all, PUTs complete and all store (R97). -/
theorem State.Filling.putEach {k : Nat} (bytes : List Byte) :
    ∀ {s : State} {h : Nat}, s.Filling h k → dist s.cfg.C k h + bytes.length < s.cfg.C →
      ∃ u h', execEach .put bytes s = .next u ∧ u.Filling h' k ∧ u.cfg = s.cfg ∧ u.tail = s.tail ∧
        u.trace = s.trace ++ bytes.map .put ∧
        dist s.cfg.C k h' = dist s.cfg.C k h + bytes.length := by
  induction bytes with
  | nil =>
    intro s h hs _
    exact ⟨s, h, rfl, hs, rfl, rfl, (List.append_nil _).symm, rfl⟩
  | cons b bytes ih =>
    intro s h hs hfits
    rw [List.length_cons] at hfits
    have hroom : inc s.cfg.C h ≠ k := by
      intro hfull
      have hocc := (fullFlag_iff_dist hs.head_lt hs.tail_lt).mp (fullFlag_iff.mpr hfull)
      omega
    have hocc : dist s.cfg.C k (inc s.cfg.C h) = dist s.cfg.C k h + 1 := by
      rw [dist_inc_right hs.tail_lt hs.head_lt, if_neg hroom]
    obtain ⟨u, hput, hu, hcfg, htail, htrace⟩ := hs.put hroom b
    rw [← hcfg] at hocc
    obtain ⟨v, h', hrest, hv, hcfg', htail', htrace', hocc'⟩ := ih hu (by rw [hcfg] at hocc ⊢; omega)
    refine ⟨v, h', ?_, hv, hcfg'.trans hcfg, htail'.trans htail, ?_, ?_⟩
    · simp only [execEach, hput, hrest]
    · simp [htrace', htrace]
    · rw [hcfg] at hocc hocc'
      rw [List.length_cons]
      omega

/-- Settles O49: `C-1` PUTs fill the buffer, whose view is then full, so IS_FULL says so and a PUT drops. -/
theorem capacityIsOneLessThanC : Obligations.CapacityIsOneLessThanC := by
  intro s k bytes b hs hp hh ht hv hlen
  obtain ⟨hc, -⟩ := State.wf_iff.mp hs
  have hkl := (State.cursors_lt hs hh ht).1
  obtain ⟨u, h, hputs, hu, hcfg, htail, htrace, hocc⟩ :=
    State.Filling.putEach bytes ⟨hc, hp, hv, hkl, hkl⟩ (by rw [dist_self]; omega)
  rw [dist_self, hlen, Nat.zero_add] at hocc
  have hfull : inc u.cfg.C h = k := by
    refine fullFlag_iff.mp ((fullFlag_iff_dist hu.head_lt hu.tail_lt).mpr ?_)
    rwa [hcfg]
  have hisFull := isFullAnswersFromTheView u h k hu.valid (hu.issuer.symm ▸ hu.view)
  rw [if_pos (show (h + 1) % u.cfg.C = k from hfull)] at hisFull
  exact ⟨u, h, _, hputs, htrace, State.view_p_head hu.view, htail.trans ht, hocc, hisFull,
    exec_put_full hu.valid hu.issuer hu.view hfull b, rfl, rfl, rfl, fun _ => rfl⟩

end Sys2Proof.Machine
end

section
/-! SUPPORT. The cursors as counts (spec/40_ringbuffer_ops.md R98): how the count moves with each update of the
state, and that every step keeps it. -/

namespace Sys2Proof.Machine

/-! ### What keeps the count -/

theorem State.cursorsCount_of_sameBlock {s s' : State} (hsame : s.sameBlock s') :
    s'.cursorsCount ↔ s.cursorsCount := by
  rw [show s' = _ from hsame]
  exact Iff.rfl

theorem State.cursorsCount_logEvent {e : Event} (he : e.quiet) (s : State) :
    (s.logEvent e).cursorsCount ↔ s.cursorsCount := by
  obtain ⟨hinit, hacc, htak⟩ := he
  simp only [State.cursorsCount, State.logEvent_head, State.logEvent_tail, State.logEvent_trace,
    State.logEvent_cfg, sinceInit_concat hinit, acceptedBytes_append, takenBytes_append, hacc, htak,
    List.append_nil]

theorem State.cursorsCount_arm {s : State} (hs : s.cursorsCount) : s.arm.cursorsCount :=
  (State.cursorsCount_logEvent (e := .arm) ⟨Event.noConfusion, rfl, rfl⟩ (s.setArmed true)).mpr hs

theorem State.cursorsCount_disarm {s : State} (hs : s.cursorsCount) : s.disarm.cursorsCount :=
  (State.cursorsCount_logEvent (e := .disarm) ⟨Event.noConfusion, rfl, rfl⟩ (s.setArmed false)).mpr hs

theorem State.cursorsCount_drop {s : State} (hs : s.cursorsCount) (b : Byte) :
    (s.logEvent (.drop b)).cursorsCount :=
  (State.cursorsCount_logEvent ⟨Event.noConfusion, rfl, rfl⟩ s).mpr hs

theorem State.cursorsCount_txWrite {s : State} (hs : s.cursorsCount) (b : Byte) :
    (s.logEvent (.txWrite b)).cursorsCount :=
  (State.cursorsCount_logEvent ⟨Event.noConfusion, rfl, rfl⟩ s).mpr hs

/-- INIT starts the count at the cursors it sets. -/
theorem State.cursorsCount_ringInit (s : State) : s.ringInit.cursorsCount := by
  rintro h t ⟨⟩ ⟨⟩
  rw [State.ringInit_trace, sinceInit_concat_init]
  exact ⟨(Nat.zero_mod _).symm, (Nat.zero_mod _).symm⟩

/-- Advancing a cursor counts one more. -/
theorem inc_count {C i n : Nat} (hi : i = n % C) : inc C i = (n + 1) % C := by
  rw [hi, inc, Nat.mod_add_mod]

theorem State.cursorsCount_store {s : State} {h : Nat} (hs : s.cursorsCount) (hh : s.head = some h)
    (m : Memory) (b : Byte) :
    (((s.setStorage m).setHead (inc s.cfg.C h)).logEvent (.put b)).cursorsCount := by
  rintro h' t ⟨⟩ ht
  obtain ⟨hhead, htail⟩ := hs h t hh ht
  simp only [State.logEvent_trace, sinceInit_concat (e := .put b) Event.noConfusion,
    acceptedBytes_append, takenBytes_append, acceptedBytes_put, takenBytes_put, List.append_nil,
    List.length_append, List.length_singleton]
  exact ⟨inc_count hhead, htail⟩

theorem State.cursorsCount_take {s : State} {t : Nat} (hs : s.cursorsCount) (ht : s.tail = some t)
    (b : Byte) : ((s.setTail (inc s.cfg.C t)).logEvent (.get b)).cursorsCount := by
  rintro h t' hh ⟨⟩
  obtain ⟨hhead, htail⟩ := hs h t hh ht
  simp only [State.logEvent_trace, sinceInit_concat (e := .get b) Event.noConfusion,
    acceptedBytes_append, takenBytes_append, acceptedBytes_get, takenBytes_get, List.append_nil,
    List.length_append, List.length_singleton]
  exact ⟨hhead, inc_count htail⟩

/-! ### The steps keep the count -/

theorem exec_keeps_cursorsCount {s s' : State} {i : Instr} (hs : s.cursorsCount)
    (hx : exec i s = .next s') : s'.cursorsCount := by
  cases i with
  | init =>
    obtain ⟨-, rfl⟩ := exec_init_next hx
    exact State.cursorsCount_ringInit s
  | begin n =>
    obtain ⟨-, -, rfl⟩ := exec_begin_next hx
    exact State.cursorsCount_ringInit _
  | isEmpty =>
    obtain ⟨r, rfl⟩ := exec_isEmpty_next hx
    exact hs
  | isFull =>
    obtain ⟨r, rfl⟩ := exec_isFull_next hx
    exact hs
  | put b =>
    obtain ⟨-, h, t, hv, ⟨-, rfl⟩ | ⟨-, -, rfl⟩⟩ := exec_put_next hx
    · exact State.cursorsCount_drop hs b
    · exact State.cursorsCount_store hs (State.view_p_head hv) _ b
  | get =>
    obtain ⟨-, h, t, hv, ⟨-, rfl⟩ | ⟨-, -, b, -, rfl⟩⟩ := exec_get_next hx
    · exact hs
    · exact State.cursorsCount_take hs (State.view_c_tail hv) b
  | emit b =>
    obtain ⟨-, h, t, u, hv, hu, rfl⟩ := exec_emit_next hx
    have hcount : u.cursorsCount := by
      obtain ⟨-, rfl⟩ | ⟨-, -, rfl⟩ := hu
      · exact State.cursorsCount_drop (s := s.setGie false) hs b
      · exact State.cursorsCount_store (s := s.setGie false) hs (State.view_p_head hv) _ b
    split
    · exact State.cursorsCount_arm hcount
    · exact hcount
  | drain =>
    obtain ⟨-, ⟨-, rfl⟩ | ⟨-, h, t, hv, ⟨-, rfl⟩ | ⟨-, -, b, -, rfl⟩⟩⟩ := exec_drain_next hx
    · exact hs
    · exact State.cursorsCount_disarm hs
    · exact State.cursorsCount_txWrite (State.cursorsCount_take hs (State.view_c_tail hv) b) b

theorem txDone_keeps_cursorsCount {s s' : State} (hs : s.cursorsCount) (hx : txDone s = .next s') :
    s'.cursorsCount := by
  obtain ⟨-, rfl⟩ | ⟨-, b, -, rfl⟩ := txDone_next hx <;> exact hs

theorem syncH_keeps_cursorsCount {s s' : State} (hs : s.cursorsCount) (hx : syncH s = .next s') :
    s'.cursorsCount := by
  obtain h | h := syncH_frame hx <;> rw [h]
  · exact hs
  · exact State.cursorsCount_arm hs

theorem syncT_keeps_cursorsCount {s s' : State} (hs : s.cursorsCount) (hx : syncT s = .next s') :
    s'.cursorsCount := by
  rw [syncT_frame hx]
  exact hs

/-- What was accepted is as much as what was taken and what is queued. -/
theorem State.fifo_length {s : State} {h t : Nat} (hq : s.fifo) (hh : s.head = some h)
    (ht : s.tail = some t) :
    (acceptedBytes (sinceInit s.trace)).length =
      (takenBytes (sinceInit s.trace)).length + dist s.cfg.C t h := by
  have hlen := congrArg List.length (hq (by simp [hh]))
  simpa [State.queue_eq hh ht] using hlen

/-- Settles O42: a store counts on `head`'s side, a take on `tail`'s, INIT starts both counts, and no other
event counts. -/
theorem stepKeepsTheCursorCount : Obligations.StepKeepsTheCursorCount := by
  refine ⟨fun s s' hs hx => ?_, fun s h t => State.fifo_length⟩
  exact step_keeps State.cursorsCount (fun _ _ hsame => (State.cursorsCount_of_sameBlock hsame).mpr)
    (fun _ _ _ => exec_keeps_cursorsCount) (fun _ _ => txDone_keeps_cursorsCount)
    (fun _ _ => syncH_keeps_cursorsCount) (fun _ _ => syncT_keeps_cursorsCount) hs hx

end Sys2Proof.Machine
end

section
/-! SUPPORT. The checks before a command's rule (spec/40_ringbuffer_ops.md R90), in their order: reserved words,
ports, the hold of a DRAIN, cursors with no value. -/

namespace Sys2Proof.Machine

/-- A decoded word about to be issued is held, only its turn being taken, or else performed on its port. -/
theorem State.step_issues {s : State} {port : Port} {w : CmdWord} {i : Instr}
    (hc : validInstance s.cfg = true) (hissue : s.aboutToIssue port w) (hw : decode w = .ok i) :
    ∃ u, s.sameBlock u ∧ u.issuer = port ∧
      step s = if s.holds port i then .next { s with sched := s.sched.tail } else exec i u := by
  cases port <;> obtain ⟨⟨turns, hsched⟩, rest, hq⟩ := hissue <;>
    rw [step_settled hc hsched, hsched]
  · refine ⟨{ s with sched := turns, pq := rest, issuer := .p }, rfl, rfl, ?_⟩
    have hfree : ¬ s.holds .p i = true := fun hh => Port.noConfusion (State.holds_iff.mp hh).1
    rw [if_neg hfree]
    exact State.producerTurn_word (s := { s with sched := turns }) hq hw
  · refine ⟨{ s with sched := turns, cq := rest, issuer := .c }, rfl, rfl, ?_⟩
    simp only [State.runTurn, State.consumerTurn, hq]
    exact State.issueWord_eq hw

/-- While a cursor has no value neither side has a view (R39). -/
theorem State.view_uninit {s : State} (hno : s.head = none ∨ s.tail = none) (port : Port) :
    s.view port = .error .uninitUse := by
  unfold State.view
  split
  next hh ht => simp [hh, ht] at hno
  next => rfl

theorem State.withView_uninit {s : State} (hno : s.head = none ∨ s.tail = none)
    (rule : Nat → Nat → Result) : s.withView rule = .fault .uninitUse := by
  simp only [State.withView, State.view_uninit hno]

/-- The initialisation check: every command but INIT and BEGIN needs a view, DRAIN once it is enabled (R90). -/
theorem exec_uninit {s : State} {i : Instr} (hc : validInstance s.cfg = true)
    (ha : accepts i s.issuer = true) (hinit : i ≠ .init) (hbegin : ∀ n, i ≠ .begin n)
    (hen : i = .drain → s.drainEnabled = true) (hno : s.head = none ∨ s.tail = none) :
    exec i s = .fault .uninitUse := by
  cases i with
  | init => exact absurd rfl hinit
  | begin n => exact absurd rfl (hbegin n)
  | isEmpty | isFull | put _ | get | emit _ =>
    exact (State.onPort_eq hc ha).trans (State.withView_uninit hno _)
  | drain =>
    refine (State.onPort_eq hc ha).trans ?_
    rw [if_pos (hen rfl)]
    exact State.withView_uninit hno _

/-- Before initialisation nothing was armed, so DRAIN is not enabled (R38, R90). -/
theorem State.drain_disabled_of_uninit {s : State} (hs : s.wf = true) (hno : s.head = none) :
    s.drainEnabled = false := by
  obtain ⟨-, -, hcur, -⟩ := State.wf_iff.mp hs
  have hoff : s.armed = false := by
    cases ht : s.tail with
    | none => simpa [State.cursorsOk, hno, ht] using hcur
    | some t => simp [State.cursorsOk, hno, ht] at hcur
  simp [State.drainEnabled, State.drainPending, hoff]

/-- Settles O9: a reserved word is not issued, a decoded one meets the hold and the port's check before the
check of the cursors. -/
theorem commandChecksComeInOrder : Obligations.CommandChecksComeInOrder := by
  intro s port w hc hissue
  refine ⟨fun e hw => ?_, fun i hw => ?_⟩
  · obtain ⟨u, taken, hstep⟩ := State.step_of_aboutToIssue hc hissue
    rw [hstep, State.issueWord_reserved hw]
  · obtain ⟨u, hu, rfl, hstep⟩ := State.step_issues hc hissue hw
    have hcu : validInstance u.cfg = true := by rwa [show u = _ from hu]
    have hheld : accepts i u.issuer = true → i = .drain → s.drainEnabled = false →
        step s = .next { s with sched := s.sched.tail } := by
      rintro ha rfl hoff
      rw [hstep, if_pos (State.holds_iff.mpr ⟨by simpa [accepts] using ha, rfl, hoff⟩)]
    have hperformed : (i = .drain → u.issuer = .c → s.drainEnabled = true) → step s = exec i u := by
      intro hon
      rw [hstep, if_neg]
      intro hholds
      obtain ⟨hport, hi, hoff⟩ := State.holds_iff.mp hholds
      exact Bool.noConfusion (hoff.symm.trans (hon hi hport))
    refine ⟨fun ha => ?_, hheld, fun ha hinit hbegin hen hno => ?_, fun hs hno hport hi => ?_⟩
    · rw [hperformed, (exec_wrongPort_iff hcu).mpr ha]
      rintro rfl hport
      simp [accepts, hport] at ha
    · rw [hperformed fun hi _ => hen hi]
      rw [show u = _ from hu] at ha ⊢
      exact exec_uninit hc ha hinit hbegin hen hno
    · refine hheld ?_ hi (State.drain_disabled_of_uninit hs hno)
      rw [hi, hport]
      rfl

end Sys2Proof.Machine
end

section
/-! SUPPORT. The control logic run forward (spec/41_control_ops.md R111 to R116): once the checks pass, what BEGIN,
EMIT and DRAIN answer on a view, and from it the statements on the three commands. -/

namespace Sys2Proof.Machine

/-! ### BEGIN -/

/-- For a positive rate the division that rounds toward zero is the one that rounds down. -/
theorem bitRateDivisor_eq (fClk : Nat) (baud : Int) :
    bitRateDivisor fClk baud = (fClk : Int) / (8 * baud) - 1 := by
  rw [bitRateDivisor, Int.tdiv_eq_ediv_of_nonneg (Int.natCast_nonneg fClk)]

/-- Settles O24: the port accepts BEGIN, which checks its rate and needs no view. -/
theorem beginConfiguresAndResets : Obligations.BeginConfiguresAndResets := by
  intro s baud hc hp
  refine ⟨fun hle => ?_, fun hpos => ?_⟩ <;> refine (State.onPort_eq hc (hp ▸ rfl)).trans ?_
  · exact if_pos hle
  · rw [if_neg (by omega), bitRateDivisor_eq]
    rfl

/-! ### EMIT -/

/-- Arming on a condition writes `armed` and the trace (R112, R168). -/
theorem State.arm_if (s : State) (p : Prop) [Decidable p] :
    (if p then s.arm else s) = { s with
      armed := if p then true else s.armed
      trace := s.trace ++ if p then [.arm] else [] } := by
  split
  · rfl
  · rw [List.append_nil]

/-- EMIT is a put with `gie` clear, then the arming if the view was empty, then `gie` as it was (R112, R113). -/
theorem exec_emit_of_ringPut {s s' : State} {h t : Nat} {b : Byte} {stored : Bool}
    (hc : validInstance s.cfg = true) (hp : s.issuer = .p) (hv : s.view .p = .ok (h, t))
    (hr : (s.setGie false).ringPut h t b = .ok (s', stored)) :
    exec (.emit b) s = .next (((if s.cfg.S = 0 ∧ h = t then s'.arm else s').setGie s.gie).respond
      (respWord stored 0)) := by
  have hedge : (s.cfg.S == 0 && emptyFlag h t) = decide (s.cfg.S = 0 ∧ h = t) :=
    (Bool.decide_and _ _).symm
  refine (State.checks_eq hc (hp ▸ rfl) (hp.symm ▸ hv)).trans ?_
  rw [hr]
  simp only [hedge, decide_eq_true_eq]

theorem exec_emit_full {s : State} {h t : Nat} (hc : validInstance s.cfg = true) (hp : s.issuer = .p)
    (hv : s.view .p = .ok (h, t)) (hfull : inc s.cfg.C h = t) (b : Byte) :
    exec (.emit b) s = .next { s with
      armed := if s.cfg.S = 0 ∧ h = t then true else s.armed
      trace := s.trace ++ [.drop b] ++ (if s.cfg.S = 0 ∧ h = t then [.arm] else [])
      resp := some 0x000#9 } := by
  rw [exec_emit_of_ringPut hc hp hv (State.ringPut_full (s := s.setGie false) hfull b), State.arm_if]
  rfl

theorem exec_emit_room {s : State} {h t : Nat} (hc : validInstance s.cfg = true) (hp : s.issuer = .p)
    (hv : s.view .p = .ok (h, t)) (hroom : inc s.cfg.C h ≠ t) (hlt : h < s.cfg.C) (b : Byte) :
    exec (.emit b) s = .next { s with
      storage := Memory.write s.storage h b
      head := some (inc s.cfg.C h)
      armed := if s.cfg.S = 0 ∧ h = t then true else s.armed
      trace := s.trace ++ [.put b] ++ (if s.cfg.S = 0 ∧ h = t then [.arm] else [])
      resp := some 0x100#9 } := by
  rw [exec_emit_of_ringPut hc hp hv (State.ringPut_room (s := s.setGie false) hroom hlt b), State.arm_if]
  rfl

/-- Settles O25: a full view drops, another stores in the slot at `head`. -/
theorem emitStoresAndArms : Obligations.EmitStoresAndArms := by
  intro s h t b hc hp hv
  refine ⟨fun hfull => exec_emit_full hc hp hv hfull b, fun hroom hlt => ?_⟩
  exact ⟨_, exec_emit_room hc hp hv hroom hlt b, Memory.read_write_same _ h b,
    fun a ha => Memory.read_write_other _ h a b ha⟩

/-! ### DRAIN -/

theorem exec_drain_held {s : State} (hc : validInstance s.cfg = true) (hp : s.issuer = .c)
    (hoff : ¬ s.drainEnabled = true) : exec .drain s = .next s :=
  (State.onPort_eq hc (hp ▸ rfl)).trans (if_neg hoff)

/-- Enabled and with a view, DRAIN's checks let its rule through (R90, R115). -/
theorem State.drain_checks_eq {s : State} {rule : Nat → Nat → Result} {h t : Nat}
    (hc : validInstance s.cfg = true) (hp : s.issuer = .c) (hen : s.drainEnabled = true)
    (hv : s.view .c = .ok (h, t)) :
    s.onPort .drain (if s.drainEnabled then s.withView rule else .next s) = rule h t :=
  ((State.onPort_eq hc (hp ▸ rfl)).trans (if_pos hen)).trans (State.withView_eq (hp.symm ▸ hv))

theorem exec_drain_empty {s : State} {t : Nat} (hc : validInstance s.cfg = true) (hp : s.issuer = .c)
    (hen : s.drainEnabled = true) (hv : s.view .c = .ok (t, t)) :
    exec .drain s = .next (s.disarm.respond (respWord false 0)) := by
  refine (State.drain_checks_eq hc hp hen hv).trans ?_
  rw [State.ringGet_empty]

/-- Two events, one after the other. -/
theorem State.logEvent_logEvent (s : State) (e e' : Event) :
    (s.logEvent e).logEvent e' = { s with trace := s.trace ++ [e, e'] } := by
  simp [State.logEvent]

theorem exec_drain_byte {s : State} {h t : Nat} {b : Byte} (hc : validInstance s.cfg = true)
    (hp : s.issuer = .c) (hen : s.drainEnabled = true) (hv : s.view .c = .ok (h, t)) (hbyte : h ≠ t)
    (hlt : t < s.cfg.C) (hb : Memory.read s.storage t = some b) :
    exec .drain s = .next { s with
      tail := some (inc s.cfg.C t)
      txreg := some b, txfree := false
      trace := s.trace ++ [.get b, .txWrite b]
      resp := some (0x100#9 + b.setWidth 9) } := by
  refine (State.drain_checks_eq hc hp hen hv).trans ?_
  rw [State.ringGet_byte hbyte hlt hb, ← respWord_true]
  simp only [State.logEvent_logEvent]
  rfl

/-- Settles O26: not enabled, an empty view, a view with a byte. -/
theorem drainSendsOrDisarms : Obligations.DrainSendsOrDisarms := by
  intro s hc hp
  refine ⟨fun hoff => exec_drain_held hc hp (mt State.drainEnabled_iff.mp hoff), ?_⟩
  intro h t harmed hfree hgie hv
  have hen := State.drainEnabled_iff.mpr ⟨harmed, hfree, hgie⟩
  refine ⟨?_, fun b => exec_drain_byte hc hp hen hv⟩
  rintro rfl
  exact exec_drain_empty hc hp hen hv

end Sys2Proof.Machine
end

section
/-! SUPPORT. The notification (spec/41_control_ops.md R112, R115, R118): DRAIN alone makes the register busy, and only
while armed; EMIT arms on the empty edge only. -/

namespace Sys2Proof.Machine

/-! ### Busy means armed -/

/-- Only DRAIN hands a byte to the register (R115). -/
theorem exec_keeps_txfree {s s' : State} {i : Instr} (hi : i ≠ .drain) (hx : exec i s = .next s') :
    s'.txfree = s.txfree := by
  cases i with
  | init =>
    obtain ⟨-, rfl⟩ := exec_init_next hx
    rfl
  | begin n =>
    obtain ⟨-, -, rfl⟩ := exec_begin_next hx
    rfl
  | isEmpty =>
    obtain ⟨r, rfl⟩ := exec_isEmpty_next hx
    rfl
  | isFull =>
    obtain ⟨r, rfl⟩ := exec_isFull_next hx
    rfl
  | put b => rw [exec_store_frame (.inl rfl) hx]
  | emit b => rw [exec_store_frame (.inr rfl) hx]
  | get => obtain ⟨-, h, t, -, ⟨-, rfl⟩ | ⟨-, -, b, -, rfl⟩⟩ := exec_get_next hx <;> rfl
  | drain => exact absurd rfl hi

/-- Only DRAIN disarms (R32). -/
theorem exec_keeps_armed {s s' : State} {i : Instr} (hi : i ≠ .drain) (hx : exec i s = .next s')
    (hon : s.armed = true) : s'.armed = true := by
  obtain hsame | ⟨hon', -⟩ | ⟨-, hdrain, -⟩ := exec_armed hx
  · exact hsame.trans hon
  · exact hon'
  · exact absurd hdrain hi

/-- An enabled DRAIN disarms only where it sends nothing, and sends only while armed. -/
theorem exec_keeps_busyArmed {s s' : State} {i : Instr} (hs : s.txfree = false → s.armed = true)
    (hx : exec i s = .next s') : s'.txfree = false → s'.armed = true := by
  by_cases hi : i = .drain
  · subst hi
    obtain ⟨-, ⟨-, rfl⟩ | ⟨hen, h, t, -, hcase⟩⟩ := exec_drain_next hx
    · exact hs
    · obtain ⟨harmed, hfree, -⟩ := State.drainEnabled_iff.mp hen
      obtain ⟨-, rfl⟩ | ⟨-, -, b, -, rfl⟩ := hcase
      · exact fun hbusy => Bool.noConfusion (hfree.symm.trans hbusy)
      · exact fun _ => harmed
  · rw [exec_keeps_txfree hi hx]
    exact fun hbusy => exec_keeps_armed hi hx (hs hbusy)

/-- Settles O44: TX_DONE frees the register, the edges leave it and disarm nothing. -/
theorem busyRegisterMeansArmed : Obligations.BusyRegisterMeansArmed := by
  refine ⟨fun c => rfl, fun s s' hs hx => ?_⟩
  refine step_keeps (fun u => u.txfree = false → u.armed = true) ?_
    (fun _ _ _ => exec_keeps_busyArmed) ?_ ?_ ?_ hs hx
  · intro u u' hsame hu
    rwa [show u' = _ from hsame]
  · intro u u' hu hx
    obtain ⟨-, rfl⟩ | ⟨-, b, -, rfl⟩ := txDone_next hx
    · exact hu
    · exact nofun
  · intro u u' hu hx
    obtain h | h := syncH_frame hx <;> rw [h]
    · exact hu
    · exact fun _ => rfl
  · intro u u' hu hx
    rw [syncT_frame hx]
    exact hu

/-! ### Arming on the edge -/

theorem inc_ne_self {C i : Nat} (hC : 2 ≤ C) (hi : i < C) : inc C i ≠ i := by
  rw [inc_eq hi]
  split <;> omega

/-- With a slot to spare no EMIT leaves the queue empty: it stores a byte, or there were some. -/
theorem exec_emit_apart {s s' : State} {b : Byte} (hs : s.wf = true) (hS : s.cfg.S = 0)
    (hC : 2 ≤ s.cfg.C) (hx : exec (.emit b) s = .next s') : s'.head ≠ s'.tail := by
  have htail : s'.tail = s.tail := by rw [exec_store_frame (.inr rfl) hx]
  obtain ⟨h, t, hv, hcase⟩ := exec_store_cases (.inr rfl) hx
  obtain ⟨hh, ht⟩ := State.cursors_of_view hS hv
  obtain ⟨hfull, -, hkept⟩ | ⟨hroom, -, -, hnew⟩ := hcase
  · have hne : h ≠ t := fun he => inc_ne_self hC (State.cursors_lt hs hh ht).1 (hfull.trans he.symm)
    simpa [hkept, htail, hh, ht] using hne
  · simpa [hnew, htail, ht] using hroom

/-- On a queue that is not empty EMIT leaves `armed` and adds its own event only. -/
theorem exec_emit_unarming {s s' : State} {b : Byte} (hS : s.cfg.S = 0) (hq : s.head ≠ s.tail)
    (hx : exec (.emit b) s = .next s') :
    s'.armed = s.armed ∧ (s'.trace = s.trace ++ [.put b] ∨ s'.trace = s.trace ++ [.drop b]) := by
  obtain ⟨-, h, t, u, hv, hu, rfl⟩ := exec_emit_next hx
  obtain ⟨hh, ht⟩ := State.cursors_of_view hS hv
  have hne : ¬ (s.cfg.S = 0 ∧ h = t) := by
    rintro ⟨-, rfl⟩
    exact hq (hh.trans ht.symm)
  rw [if_neg hne]
  obtain ⟨-, rfl⟩ | ⟨-, -, rfl⟩ := hu
  · exact ⟨rfl, .inr rfl⟩
  · exact ⟨rfl, .inl rfl⟩

/-- A DRAIN disarms on an empty view only, and does nothing else (R115). -/
theorem exec_drain_disarms {s s' : State} (hx : exec .drain s = .next s') (hon : s.armed = true)
    (hoff : s'.armed = false) :
    ∃ t, s.view .c = .ok (t, t) ∧ s' = s.disarm.respond (respWord false 0) := by
  obtain ⟨-, ⟨-, rfl⟩ | ⟨-, h, t, hv, ⟨rfl, rfl⟩ | ⟨-, -, b, -, rfl⟩⟩⟩ := exec_drain_next hx
  · exact Bool.noConfusion (hon.symm.trans hoff)
  · exact ⟨h, hv, rfl⟩
  · exact Bool.noConfusion (hon.symm.trans hoff)

/-- Settles O51: after an EMIT the queue is not empty, after a DRAIN that disarmed it is, with room. -/
theorem armingIsEdgeTriggered : Obligations.ArmingIsEdgeTriggered := by
  refine ⟨fun s t u a b hs hS hC hx hx' => ?_, fun s t b hs hS hC hx hon hoff => ?_⟩
  · obtain ⟨-, hcfg, -⟩ := exec_constants hx
    exact exec_emit_unarming (hcfg ▸ hS) (exec_emit_apart hs hS hC hx) hx'
  · obtain ⟨k, hv, rfl⟩ := exec_drain_disarms hx hon hoff
    obtain ⟨hh, ht⟩ := State.cursors_of_view hS hv
    obtain ⟨hc, -⟩ := State.wf_iff.mp hs
    have hk := (State.cursors_lt hs hh ht).1
    have hemit := exec_emit_room (s := { s.disarm.respond (respWord false 0) with issuer := .p }) hc rfl
      (State.view_exact hh ht hS .p) (inc_ne_self hC hk) hk b
    refine ⟨_, hemit, ?_, ?_⟩
    · exact if_pos ⟨hS, rfl⟩
    · simp [hS]

end Sys2Proof.Machine
end

section
/-! SUPPORT. The restart loop (spec/41_control_ops.md R117): one round puts the oldest byte on the wire and is ready
for the next; the DRAIN after the last disarms and leaves a final state (spec/70_reset_and_hazards.md R234). -/

namespace Sys2Proof.Machine

/-- Without synchronisers the order around the ring is the two cursors'. -/
theorem State.ringOrdered_of_no_stages {s : State} (hs : s.wf = true) (hS : s.cfg.S = 0) :
    s.ringOrdered = true := by
  unfold State.ringOrdered
  split
  next h t hh ht =>
    obtain ⟨-, -, -, ⟨hhs, hts⟩, -⟩ := State.wf_iff.mp hs
    obtain ⟨hlenH, -⟩ := (State.chainOk_some hh).mp hhs
    obtain ⟨hlenT, -⟩ := (State.chainOk_some hh).mp hts
    rw [List.length_eq_zero_iff.mp (hlenH.trans hS), List.length_eq_zero_iff.mp (hlenT.trans hS)]
    exact decide_eq_true (dist_lt (State.cursors_lt hs hh ht).1)
  next => rfl

/-- The consumer about to take the drain event, without synchronisers. -/
structure State.Draining (s : State) : Prop where
  wf : s.wf = true
  fifo : s.fifo
  noStages : s.cfg.S = 0
  issuer : s.issuer = .c
  enabled : s.drainEnabled = true

section
variable {s : State}

theorem State.Draining.valid (hs : s.Draining) : validInstance s.cfg = true :=
  (State.wf_iff.mp hs.wf).1

/-- Nothing is armed before initialisation, so the cursors have values. -/
theorem State.Draining.cursors (hs : s.Draining) :
    ∃ h t, s.head = some h ∧ s.tail = some t ∧ h < s.cfg.C ∧ t < s.cfg.C := by
  cases hh : s.head with
  | none => exact Bool.noConfusion (hs.enabled.symm.trans (State.drain_disabled_of_uninit hs.wf hh))
  | some h =>
    obtain ⟨-, -, hcur, -⟩ := State.wf_iff.mp hs.wf
    obtain ⟨hhl, t, ht, htl⟩ := State.cursors_of_head hcur hh
    exact ⟨h, t, rfl, ht, hhl, htl⟩

/-- After its DRAIN and TX_DONE the consumer is ready for the next round (R117). -/
theorem State.Draining.next {u v : State} (hs : s.Draining) (hu : exec .drain s = .next u)
    (hv : txDone u = .next v) (hcfg : v.cfg = s.cfg) (hissuer : v.issuer = s.issuer)
    (hen : v.drainEnabled = true) : v.Draining where
  wf := txDone_keeps_wf (exec_keeps_wf hs.wf hu) hv
  fifo := txDone_keeps_fifo
    (exec_keeps_fifo hs.wf (State.ringOrdered_of_no_stages hs.wf hs.noStages) hs.fifo hu) hv
  noStages := hcfg ▸ hs.noStages
  issuer := hissuer.trans hs.issuer
  enabled := hen

/-- One round of the loop puts the oldest byte on the wire (R115, R164). -/
theorem State.Draining.round {x : Option Byte} {q : List (Option Byte)} (hs : s.Draining)
    (hq : s.queue = x :: q) :
    ∃ u v, exec .drain s = .next u ∧ txDone u = .next v ∧ v.Draining ∧ v.queue = q ∧
      v.line.map some = s.line.map some ++ [x] ∧ v.pq = s.pq := by
  obtain ⟨h, t, hh, ht, hhl, htl⟩ := hs.cursors
  have hbyte : h ≠ t := by
    rintro rfl
    simp [State.queue_nil hh ht] at hq
  obtain ⟨b, hb⟩ := State.fifo_read_tail hs.wf hs.fifo hh ht hbyte
  obtain ⟨rfl, hrest⟩ : x = some b ∧ q = (s.setTail (inc s.cfg.C t)).queue := by
    have htake := State.queue_take hh ht hhl htl hbyte
    rw [hq, hb] at htake
    exact List.cons.inj htake
  have hview := State.view_exact hh ht hs.noStages .c
  have hdrain := exec_drain_byte hs.valid hs.issuer hs.enabled hview hbyte htl hb
  obtain ⟨harmed, -, hgie⟩ := State.drainEnabled_iff.mp hs.enabled
  refine ⟨_, _, hdrain, rfl, hs.next hdrain rfl rfl rfl ?_, ?_, ?_, rfl⟩
  · exact State.drainEnabled_iff.mpr ⟨harmed, rfl, hgie⟩
  · rw [hrest]
    exact State.queue_congr rfl rfl rfl rfl
  · simp

/-- As many rounds as there are bytes put the queue on the wire in order. -/
theorem State.Draining.rounds (q : List (Option Byte)) :
    ∀ {s : State}, s.Draining → s.queue = q →
      ∃ t, drainRounds q.length s = .next t ∧ t.Draining ∧ t.queue = [] ∧
        t.line.map some = s.line.map some ++ q ∧ t.pq = s.pq := by
  induction q with
  | nil =>
    intro s hs hq
    exact ⟨s, rfl, hs, hq, (List.append_nil _).symm, rfl⟩
  | cons x q ih =>
    intro s hs hq
    obtain ⟨u, v, hdrain, htx, hv, hvq, hline, hpq⟩ := hs.round hq
    obtain ⟨t, hrest, ht, htq, hline', hpq'⟩ := ih hv hvq
    refine ⟨t, ?_, ht, htq, ?_, hpq'.trans hpq⟩
    · simp only [List.length_cons, drainRounds, hdrain, htx, hrest]
    · rw [hline', hline, List.append_assoc, List.singleton_append]

/-- An empty queue means equal cursors. -/
theorem State.Draining.caughtUp (hs : s.Draining) (hq : s.queue = []) :
    ∃ k, s.head = some k ∧ s.tail = some k := by
  obtain ⟨h, t, hh, ht, hhl, htl⟩ := hs.cursors
  have hlen := congrArg List.length (State.queue_eq hh ht)
  rw [hq, slotsFrom_length] at hlen
  obtain rfl := (dist_eq_zero htl hhl).mp hlen.symm
  exact ⟨t, hh, ht⟩

/-- A state that is not armed, with the register free and the cursors equal, is final once the producer has nothing
to issue (R234). -/
theorem State.final_of_caughtUp {k : Nat} (hS : s.cfg.S = 0) (hh : s.head = some k)
    (ht : s.tail = some k) (hfree : s.txfree = true) (hoff : s.armed = false) (hpq : s.pq = []) :
    s.final = true := by
  simp [State.final, State.viewsExact, hS, hh, ht, hfree, hoff, hpq]

end

/-- Settles O52: a round per queued byte, then a DRAIN on equal cursors. -/
theorem queueDrainsToIdle : Obligations.QueueDrainsToIdle := by
  intro s hs hfifo hS hp hen
  obtain ⟨t, hrounds, ht, hq, hline, hpq⟩ :=
    State.Draining.rounds s.queue ⟨hs, hfifo, hS, hp, hen⟩ rfl
  obtain ⟨k, hhead, htail⟩ := ht.caughtUp hq
  obtain ⟨-, hfree, -⟩ := State.drainEnabled_iff.mp ht.enabled
  have hdrain := exec_drain_empty ht.valid ht.issuer ht.enabled
    (State.view_exact hhead htail ht.noStages .c)
  refine ⟨t, _, hrounds, hline, hq, hdrain, rfl, rfl, hhead.trans htail.symm, fun hnone => ?_⟩
  exact State.final_of_caughtUp (s := t.disarm.respond (respWord false 0)) ht.noStages hhead htail
    hfree rfl (hpq.trans hnone)

end Sys2Proof.Machine
end

section
/-! SUPPORT. The drain event along a run (spec/41_control_ops.md R116, spec/70_reset_and_hazards.md R233): only an
attempted DRAIN can put an end to it. -/

namespace Sys2Proof.Machine

/-! ### Steps that attempt no DRAIN -/

@[simp] theorem State.advance_cq (s : State) : s.advance.cq = s.cq := by
  unfold State.advance
  split <;> rfl

/-- On the P port a DRAIN is refused, so what a producer's turn performs is another command (R78). -/
theorem State.producerTurn_next {s u s' : State} (hsu : s.sameBlock u)
    (hx : u.producerTurn = .next s') :
    s.sameBlock s' ∨ ∃ i v, i ≠ .drain ∧ s.sameBlock v ∧ exec i v = .next s' := by
  unfold State.producerTurn at hx
  split at hx
  next =>
    injection hx with hx
    exact .inl (hx ▸ hsu)
  next w rest hq =>
    obtain ⟨i, -, ⟨-, hp, -⟩ | hx⟩ := State.issueWord_next hx
    · cases hp
    · refine .inr ⟨i, _, ?_, State.sameBlock_trans hsu ?_, hx⟩
      · rintro rfl
        cases exec_accepts hx
      · rfl
  next =>
    split at hx
    next =>
      injection hx with hx
      exact .inl (State.sameBlock_trans hsu (hx ▸ rfl))
    next => cases hx

/-- A turn of the C port whose word is no DRAIN performs another command. -/
theorem State.consumerTurn_next {s u s' : State} (hsu : s.sameBlock u)
    (hno : ∀ w rest, u.cq = w :: rest → decode w ≠ .ok .drain) (hx : u.consumerTurn = .next s') :
    s.sameBlock s' ∨ ∃ i v, i ≠ .drain ∧ s.sameBlock v ∧ exec i v = .next s' := by
  unfold State.consumerTurn at hx
  split at hx
  next =>
    injection hx with hx
    exact .inl (hx ▸ hsu)
  next w rest hq =>
    obtain ⟨i, hi, ⟨rfl, -⟩ | hx⟩ := State.issueWord_next hx
    · exact absurd hi (hno w rest hq)
    · refine .inr ⟨i, _, ?_, State.sameBlock_trans hsu ?_, hx⟩
      · rintro rfl
        exact hno w rest hq hi
      · rfl

/-- What a step can do that attempts no DRAIN. -/
theorem step_cases_of_not_attempted {s s' : State} (hno : ¬ s.attemptsDrain) (hx : step s = .next s') :
    (s.sameBlock s' ∨ ∃ i u, i ≠ .drain ∧ s.sameBlock u ∧ exec i u = .next s') ∨
      ∃ u, s.sameBlock u ∧ (txDone u = .next s' ∨ syncH u = .next s' ∨ syncT u = .next s') := by
  have hadv := State.sameBlock_advance s
  unfold step State.takeStep at hx
  split at hx
  case isFalse => cases hx
  case isTrue =>
    cases hturn : s.turn <;> rw [hturn] at hx
    case producer => exact .inl (State.producerTurn_next hadv hx)
    case consumer =>
      refine .inl (State.consumerTurn_next hadv (fun w rest hq hw => hno (.inr ⟨hturn, w, rest, ?_, hw⟩)) hx)
      rwa [State.advance_cq] at hq
    case drain => exact absurd (.inl hturn) hno
    case txDone => exact .inr ⟨_, hadv, .inl hx⟩
    case syncH => exact .inr ⟨_, hadv, .inr (.inl hx)⟩
    case syncT => exact .inr ⟨_, hadv, .inr (.inr hx)⟩

/-! ### The event stays enabled -/

theorem State.drainEnabled_of_sameBlock {s s' : State} (hsame : s.sameBlock s') :
    s'.drainEnabled = s.drainEnabled := by
  rw [show s' = _ from hsame]
  rfl

/-- Without a DRAIN the event stays enabled: nothing else disarms or takes the register (R116). -/
theorem step_keeps_drainEnabled {s s' : State} (hen : s.drainEnabled = true)
    (hno : ¬ s.attemptsDrain) (hx : step s = .next s') : s'.drainEnabled = true := by
  have hsame : ∀ {u}, s.sameBlock u → u.drainEnabled = true := fun hu =>
    (State.drainEnabled_of_sameBlock hu).trans hen
  obtain (hu | ⟨i, u, hi, hu, hx⟩) | ⟨u, hu, hcase⟩ := step_cases_of_not_attempted hno hx <;>
    obtain ⟨harmed, hfree, hgie⟩ := State.drainEnabled_iff.mp (hsame hu)
  · exact hsame hu
  · obtain ⟨hgie', -, -⟩ := exec_constants hx
    exact State.drainEnabled_iff.mpr ⟨exec_keeps_armed hi hx harmed,
      (exec_keeps_txfree hi hx).trans hfree, hgie'.trans hgie⟩
  · obtain hx | hx | hx := hcase
    · obtain ⟨-, rfl⟩ | ⟨hbusy, -⟩ := txDone_next hx
      · exact hsame hu
      · exact Bool.noConfusion (hfree.symm.trans hbusy)
    · obtain h | h := syncH_frame hx <;> rw [h]
      · exact State.drainEnabled_iff.mpr ⟨harmed, hfree, hgie⟩
      · exact State.drainEnabled_iff.mpr ⟨rfl, hfree, hgie⟩
    · rw [syncT_frame hx]
      exact State.drainEnabled_iff.mpr ⟨harmed, hfree, hgie⟩

/-- Along a run the event is enabled as long as no DRAIN has been attempted. -/
theorem IsRun.drainEnabled_until {r : Nat → State} (hr : IsRun r) {n : Nat}
    (hn : (r n).drainEnabled = true) {m : Nat} (hm : n ≤ m)
    (hno : ∀ k, n ≤ k → k < m → ¬ (r k).attemptsDrain) : (r m).drainEnabled = true := by
  induction m, hm using Nat.le_induction with
  | base => exact hn
  | succ m hm ih =>
    obtain ⟨s', hx, hin⟩ := hr m
    have hen := ih fun k hk hlt => hno k hk (by omega)
    rw [State.drainEnabled_of_sameBlock (State.sameBlock_of_sameButInputs hin)]
    exact step_keeps_drainEnabled hen (hno m hm (by omega)) hx

/-- Settles O55: were no DRAIN attempted, the event would stay enabled for ever, and fairness attempts it; up to
the first attempt it is enabled. -/
theorem fairRunsTakeTheDrainEvent : Obligations.FairRunsTakeTheDrainEvent := by
  classical
  intro r n hr hfair hn
  have hattempt : ∃ m, n ≤ m ∧ (r m).attemptsDrain := by
    by_contra hnone
    exact hnone (hfair n fun m hm => hr.drainEnabled_until hn hm fun k hk _ hk' => hnone ⟨k, hk, hk'⟩)
  obtain ⟨hle, hfirst⟩ := Nat.find_spec hattempt
  refine ⟨Nat.find hattempt, hle, hfirst, fun k hk hkm => ?_⟩
  exact hr.drainEnabled_until hn hk fun j hj hjk hj' =>
    Nat.find_min hattempt (lt_of_lt_of_le hjk hkm) ⟨hj, hj'⟩

end Sys2Proof.Machine
end

section
/-! SUPPORT. The order around the ring is kept (spec/42_cdc_sync.md R142): how a command moves the ring's
positions, said once, and how travel changes when a position is added, left out or moved on by one. -/

namespace Sys2Proof.Machine

/-! ### Travel -/

@[simp] theorem travel_singleton (C a : Nat) : travel C [a] = 0 := rfl

/-- Positions that are all the same make no way. -/
theorem travel_eq_zero {C a : Nat} {l : List Nat} (hl : ∀ x ∈ l, x = a) : travel C l = 0 := by
  rw [List.eq_replicate_of_mem hl]
  induction l.length with
  | zero => rfl
  | succ n ih => cases n <;> simp_all [List.replicate_succ]

/-- A position named twice adds nothing to the way. -/
theorem travel_repeat (C a : Nat) (l r : List Nat) :
    travel C (l ++ a :: a :: r) = travel C (l ++ a :: r) := by
  induction l with
  | nil => simp
  | cons x l ih => cases l <;> simp_all

/-- Moving the last position on by one makes the way at most one longer. -/
theorem travel_concat_inc_le {C h : Nat} {l : List Nat} (hl : ∀ x ∈ l, x < C) (hh : h < C) :
    travel C (l ++ [inc C h]) ≤ travel C (l ++ [h]) + 1 := by
  induction l with
  | nil => exact Nat.zero_le _
  | cons a l ih =>
    have hrest := ih fun x hx => hl x (List.mem_cons_of_mem _ hx)
    cases l with
    | nil =>
      have hdist := dist_inc_right (hl a (by simp)) hh
      simp only [List.cons_append, List.nil_append, travel_cons_cons, travel_singleton]
      split at hdist <;> omega
    | cons b l =>
      simp only [List.cons_append, travel_cons_cons] at hrest ⊢
      omega

/-- Going the whole way on from the first position leads to the last. -/
theorem add_travel_mod {C h : Nat} {l : List Nat} (hl : ∀ x ∈ l, x < C) (hh : h < C) :
    ∀ a < C, (a + travel C (a :: l ++ [h])) % C = h := by
  induction l with
  | nil => exact fun a ha => add_dist_mod ha hh
  | cons b l ih =>
    intro a ha
    have hb : b < C := hl b (by simp)
    have hrest := ih (fun x hx => hl x (List.mem_cons_of_mem _ hx)) b hb
    simp only [List.cons_append, travel_cons_cons] at hrest ⊢
    rw [← Nat.add_assoc, ← Nat.mod_add_mod, add_dist_mod ha hb, hrest]

/-- Within one lap the last position can move on by one if that does not reach the first. -/
theorem travel_concat_inc_lt {C a h : Nat} {l : List Nat} (hl : ∀ x ∈ a :: l, x < C) (hh : h < C)
    (hroom : inc C h ≠ a) (hlap : travel C (a :: l ++ [h]) < C) :
    travel C (a :: l ++ [inc C h]) < C := by
  have ha : a < C := hl a (by simp)
  have hle := travel_concat_inc_le hl hh
  have hend := add_travel_mod (fun x hx => hl x (List.mem_cons_of_mem _ hx)) hh a ha
  have hnot : travel C (a :: l ++ [h]) + 1 ≠ C := by
    intro hround
    apply hroom
    rw [inc, ← hend, Nat.mod_add_mod, Nat.add_assoc, hround, Nat.add_mod_right, Nat.mod_eq_of_lt ha]
  omega

/-- Moving a position on towards the next, which it has not reached, makes the way no longer. -/
theorem travel_inc_le {C t a : Nat} {l r : List Nat} (hl : ∀ x ∈ l, x < C) (ht : t < C) (ha : a < C)
    (hne : a ≠ t) : travel C (l ++ inc C t :: a :: r) ≤ travel C (l ++ t :: a :: r) := by
  have hleft := dist_inc_left ht ha hne.symm
  induction l with
  | nil =>
    simp only [List.nil_append, travel_cons_cons]
    omega
  | cons x l ih =>
    have hrest := ih fun y hy => hl y (List.mem_cons_of_mem _ hy)
    cases l with
    | nil =>
      have hright := dist_inc_right (hl x (by simp)) ht
      simp only [List.cons_append, List.nil_append, travel_cons_cons]
      split at hright <;> omega
    | cons y l =>
      simp only [List.cons_append, travel_cons_cons] at hrest ⊢
      omega

/-! ### Chains -/

/-- What a synchroniser shows is the word of its last stage (R138). -/
theorem seenThrough_ok {C v : Nat} {chain : List (Option Nat)} (hv : seenThrough C chain = .ok v) :
    ∃ l g, chain = l ++ [some g] ∧ dec C g = some v := by
  unfold seenThrough at hv
  split at hv
  next g hlast =>
    obtain ⟨l, hl⟩ := List.getLast?_eq_some_iff.mp hlast
    split at hv
    next hdec =>
      injection hv with hv
      exact ⟨l, g, hl, hv ▸ hdec⟩
    next => cases hv
  next => cases hv

theorem shiftIn_concat (g : Nat) (l : List (Option Nat)) (last : Option Nat) :
    shiftIn g (l ++ [last]) = some g :: l := by
  rw [shiftIn, ← List.cons_append, List.dropLast_concat]

/-- The output stage's value comes first. -/
theorem stageValues_concat {C g v : Nat} (l : List (Option Nat)) (hg : dec C g = some v) :
    stageValues C (l ++ [some g]) = v :: stageValues C l := by
  simp [stageValues, hg]

/-- The sampling stage's value comes last. -/
theorem stageValues_cons {C g v : Nat} (l : List (Option Nat)) (hg : dec C g = some v) :
    stageValues C (some g :: l) = stageValues C l ++ [v] := by
  simp [stageValues, hg]

/-- One edge drops the value that was shown and adds the cursor's at the young end (R136, R137). -/
theorem stageValues_shiftIn {C i v : Nat} {chain : List (Option Nat)} (hi : i < C)
    (hv : seenThrough C chain = .ok v) :
    ∃ l, stageValues C chain = v :: l ∧ stageValues C (shiftIn (enc C i) chain) = l ++ [i] := by
  obtain ⟨l, g, rfl, hg⟩ := seenThrough_ok hv
  exact ⟨_, stageValues_concat l hg, by rw [shiftIn_concat, stageValues_cons l (dec_enc hi)]⟩

theorem State.chainOk_nil {s : State} {h : Nat} {chain : List (Option Nat)} (hh : s.head = some h)
    (hS : s.cfg.S = 0) (hok : s.chainOk chain = true) : chain = [] := by
  obtain ⟨hlen, -⟩ := (State.chainOk_some hh).mp hok
  exact List.length_eq_zero_iff.mp (hlen.trans hS)

/-! ### The positions -/

/-- The positions around the ring, in their order: `tail_seen`, the younger tail samples, `tail`, `head_seen`, the
younger head samples, `head` (R142 a, b). -/
def ringPositions (C : Nat) (ts hs : List (Option Nat)) (t h : Nat) : List Nat :=
  stageValues C ts ++ t :: stageValues C hs ++ [h]

theorem State.ringOrdered_iff {s : State} {h t : Nat} (hh : s.head = some h) (ht : s.tail = some t) :
    s.ringOrdered = true ↔ travel s.cfg.C (ringPositions s.cfg.C s.ts s.hs t h) < s.cfg.C := by
  simp only [State.ringOrdered, hh, ht, decide_eq_true_eq, ringPositions]

theorem lt_of_mem_ringPositions {C t h x : Nat} {ts hs : List (Option Nat)} (ht : t < C) (hh : h < C)
    (hx : x ∈ ringPositions C ts hs t h) : x < C := by
  simp only [ringPositions, List.mem_append, List.mem_cons, List.not_mem_nil, or_false] at hx
  obtain (hx | rfl | hx) | rfl := hx
  · exact lt_of_mem_stageValues hx
  · exact ht
  · exact lt_of_mem_stageValues hx
  · exact hh

/-- The tail that the producer sees is the first position. -/
theorem State.view_p_first {s : State} {h t b : Nat} (hs : s.wf = true) (ht : s.tail = some t)
    (hv : s.view .p = .ok (h, b)) :
    ∃ l, stageValues s.cfg.C s.ts ++ t :: stageValues s.cfg.C s.hs = b :: l := by
  obtain ⟨-, -, -, ⟨-, hts⟩, -⟩ := State.wf_iff.mp hs
  obtain ⟨h₀, t₀, hh, ht₀, ⟨hS, -, rfl⟩ | ⟨-, -, -, hseen⟩ | ⟨-, hp, -⟩⟩ := State.view_ok hv
  · obtain rfl : t = b := Option.some.inj (ht.symm.trans ht₀)
    exact ⟨_, by rw [State.chainOk_nil hh hS hts]; rfl⟩
  · obtain ⟨l, g, hl, hg⟩ := seenThrough_ok hseen
    exact ⟨_, by rw [hl, stageValues_concat l hg]; rfl⟩
  · cases hp

/-- The head that the consumer sees is the position after `tail`. -/
theorem State.view_c_next {s : State} {h t a : Nat} (hs : s.wf = true) (hh : s.head = some h)
    (hv : s.view .c = .ok (a, t)) : ∃ l, stageValues s.cfg.C s.hs ++ [h] = a :: l := by
  obtain ⟨-, -, -, ⟨hhs, -⟩, -⟩ := State.wf_iff.mp hs
  obtain ⟨h₀, t₀, hh₀, -, ⟨hS, rfl, -⟩ | ⟨-, hp, -⟩ | ⟨-, -, -, hseen⟩⟩ := State.view_ok hv
  · obtain rfl : h = a := Option.some.inj (hh.symm.trans hh₀)
    exact ⟨_, by rw [State.chainOk_nil hh hS hhs]; rfl⟩
  · cases hp
  · obtain ⟨l, g, hl, hg⟩ := seenThrough_ok hseen
    exact ⟨_, by rw [hl, stageValues_concat l hg]; rfl⟩

/-! ### What keeps the order -/

theorem stageValues_replicate {C i : Nat} (hi : i < C) (n : Nat) :
    stageValues C (List.replicate n (some (enc C i))) = List.replicate n i := by
  simp [stageValues, dec_enc hi]

/-- INIT puts every position at 0 (R91, R140). -/
theorem State.ringOrdered_ringInit {s : State} (hs : s.wf = true) : s.ringInit.ringOrdered = true := by
  obtain ⟨hc, -⟩ := State.wf_iff.mp hs
  have h0 := validInstance_pos hc
  refine (State.ringOrdered_iff rfl rfl).mpr ?_
  rw [travel_eq_zero (a := 0), State.ringInit_cfg]
  · exact h0
  · simp only [ringPositions, State.ringInit_hs, State.ringInit_ts, State.ringInit_cfg, stageValues_replicate h0,
      List.mem_append, List.mem_cons, List.mem_replicate, List.not_mem_nil, or_false]
    tauto

/-- A store where room is seen moves `head` on, short of a whole lap (R94, R143). -/
theorem State.ringOrdered_store {s : State} {h b : Nat} (hs : s.wf = true) (hord : s.ringOrdered = true)
    (hv : s.view .p = .ok (h, b)) (hroom : inc s.cfg.C h ≠ b) :
    (s.setHead (inc s.cfg.C h)).ringOrdered = true := by
  have hh := State.view_p_head hv
  obtain ⟨-, t, -, ht, -⟩ := State.view_ok hv
  obtain ⟨hhl, htl⟩ := State.cursors_lt hs hh ht
  obtain ⟨l, hfirst⟩ := State.view_p_first hs ht hv
  have hlap := (State.ringOrdered_iff hh ht).mp hord
  refine (State.ringOrdered_iff (s := s.setHead _) rfl ht).mpr ?_
  have hall := fun x => lt_of_mem_ringPositions (x := x) (ts := s.ts) (hs := s.hs) htl hhl
  simp only [ringPositions, State.setHead_cfg, State.setHead_ts, State.setHead_hs, hfirst] at hlap hall ⊢
  exact travel_concat_inc_lt (fun x hx => hall x (List.mem_append_left _ hx)) hhl hroom hlap

/-- A take where a byte is seen moves `tail` on, not past `head_seen` (R95, R143). -/
theorem State.ringOrdered_take {s : State} {a t : Nat} (hs : s.wf = true) (hord : s.ringOrdered = true)
    (hv : s.view .c = .ok (a, t)) (hbyte : a ≠ t) : (s.setTail (inc s.cfg.C t)).ringOrdered = true := by
  have ht := State.view_c_tail hv
  obtain ⟨h, hh⟩ := State.head_of_view hv
  obtain ⟨hhl, htl⟩ := State.cursors_lt hs hh ht
  obtain ⟨-, hal, -⟩ := State.view_c_order hs hord hh ht hv
  obtain ⟨l, hnext⟩ := State.view_c_next hs hh hv
  have hlap := (State.ringOrdered_iff hh ht).mp hord
  refine (State.ringOrdered_iff (s := s.setTail _) hh rfl).mpr ?_
  simp only [ringPositions, State.setTail_cfg, State.setTail_ts, State.setTail_hs, List.append_assoc,
    List.cons_append, hnext] at hlap ⊢
  exact lt_of_le_of_lt (travel_inc_le (fun x => lt_of_mem_stageValues) htl hal hbyte) hlap

/-- SYNC_H drops the head that was shown and samples `head` (R136). -/
theorem State.ringOrdered_sampleHead {s : State} {h t v : Nat} (hs : s.wf = true)
    (hord : s.ringOrdered = true) (hh : s.head = some h) (ht : s.tail = some t)
    (hseen : seenThrough s.cfg.C s.hs = .ok v) :
    (s.setHs (shiftIn (enc s.cfg.C h) s.hs)).ringOrdered = true := by
  obtain ⟨hhl, htl⟩ := State.cursors_lt hs hh ht
  obtain ⟨l, hold, hnew⟩ := stageValues_shiftIn hhl hseen
  refine (State.ringOrdered_iff (s := s.setHs (shiftIn (enc s.cfg.C h) s.hs)) hh ht).mpr ?_
  have hdrop : (stageValues s.cfg.C s.ts ++ t :: l ++ [h]).Sublist
      (stageValues s.cfg.C s.ts ++ t :: stageValues s.cfg.C s.hs ++ [h]) := by
    simp [hold]
  have hlap := State.travel_lt_of_ringOrdered hs hord hh ht hdrop
  rw [← travel_repeat] at hlap
  simpa [ringPositions, hnew] using hlap

/-- SYNC_T drops the tail that was shown and samples `tail` (R137). -/
theorem State.ringOrdered_sampleTail {s : State} {h t : Nat} (hs : s.wf = true)
    (hord : s.ringOrdered = true) (hS : s.cfg.S ≠ 0) (hh : s.head = some h) (ht : s.tail = some t) :
    (s.setTs (shiftIn (enc s.cfg.C t) s.ts)).ringOrdered = true := by
  obtain ⟨-, -, -, ⟨-, hts⟩, -⟩ := State.wf_iff.mp hs
  obtain ⟨v, hseen, -⟩ := State.seenThrough_of_chainOk hh hS hts
  obtain ⟨-, htl⟩ := State.cursors_lt hs hh ht
  obtain ⟨l, hold, hnew⟩ := stageValues_shiftIn htl hseen
  refine (State.ringOrdered_iff (s := s.setTs (shiftIn (enc s.cfg.C t) s.ts)) hh ht).mpr ?_
  have hdrop : (l ++ t :: stageValues s.cfg.C s.hs ++ [h]).Sublist
      (stageValues s.cfg.C s.ts ++ t :: stageValues s.cfg.C s.hs ++ [h]) := by
    simp [hold]
  have hlap := State.travel_lt_of_ringOrdered hs hord hh ht hdrop
  rw [List.append_assoc, List.cons_append, ← travel_repeat] at hlap
  simpa [ringPositions, hnew] using hlap

/-! ### What a command does to the ring -/

/-- Two states with the same parameters, cursors and synchronisers: the same positions around the ring,
and the same views. -/
structure State.SameRing (s u : State) : Prop where
  cfg : u.cfg = s.cfg
  head : u.head = s.head
  tail : u.tail = s.tail
  hs : u.hs = s.hs
  ts : u.ts = s.ts

theorem State.SameRing.view {s u : State} (h : s.SameRing u) (port : Port) : u.view port = s.view port :=
  State.view_congr h.cfg h.head h.tail h.hs h.ts port

theorem State.SameRing.ringOrdered {s u : State} (h : s.SameRing u) : u.ringOrdered = s.ringOrdered := by
  simp only [State.ringOrdered, h.cfg, h.head, h.tail, h.hs, h.ts]

theorem State.SameRing.of_sameBlock {s u : State} (h : s.sameBlock u) : s.SameRing u := by
  rw [show u = _ from h]
  exact ⟨rfl, rfl, rfl, rfl, rfl⟩

/-- The ways a command can move the ring: not at all, to the start, `head` on where the producer sees room, `tail`
on where the consumer sees a byte (R91 to R95). -/
inductive RingMove (s : State) : State → Prop
  | stays : RingMove s s
  | resets : RingMove s s.ringInit
  | stores {h b : Nat} (hv : s.view .p = .ok (h, b)) (hroom : inc s.cfg.C h ≠ b) :
      RingMove s (s.setHead (inc s.cfg.C h))
  | takes {a t : Nat} (hv : s.view .c = .ok (a, t)) (hbyte : a ≠ t) :
      RingMove s (s.setTail (inc s.cfg.C t))

theorem exec_store_moves {s s' : State} {i : Instr} {b : Byte} (hi : i = .put b ∨ i = .emit b)
    (hx : exec i s = .next s') : ∃ u, RingMove s u ∧ u.SameRing s' := by
  obtain ⟨h, t, hv, hcase⟩ := exec_store_cases hi hx
  rw [exec_store_frame hi hx]
  obtain ⟨-, -, hkept⟩ | ⟨hroom, -, -, hnew⟩ := hcase
  · exact ⟨_, .stays, rfl, hkept, rfl, rfl, rfl⟩
  · exact ⟨_, .stores hv hroom, rfl, hnew, rfl, rfl, rfl⟩

theorem exec_take_moves {s s' : State} {i : Instr} (hi : i = .get ∨ i = .drain)
    (hx : exec i s = .next s') : ∃ u, RingMove s u ∧ u.SameRing s' := by
  have hcase := exec_take_cases hi hx
  rw [exec_take_frame hi hx]
  obtain hkept | ⟨a, t, -, hv, hbyte, -, hnew, -⟩ := hcase
  · exact ⟨_, .stays, rfl, rfl, hkept, rfl, rfl⟩
  · exact ⟨_, .takes hv hbyte, rfl, rfl, hnew, rfl, rfl⟩

/-- What a command does to the ring. -/
theorem exec_moves {s s' : State} {i : Instr} (hx : exec i s = .next s') :
    ∃ u, RingMove s u ∧ u.SameRing s' := by
  cases i with
  | init =>
    obtain ⟨-, rfl⟩ := exec_init_next hx
    exact ⟨_, .resets, rfl, rfl, rfl, rfl, rfl⟩
  | begin n =>
    obtain ⟨-, -, rfl⟩ := exec_begin_next hx
    exact ⟨_, .resets, rfl, rfl, rfl, rfl, rfl⟩
  | isEmpty =>
    obtain ⟨r, rfl⟩ := exec_isEmpty_next hx
    exact ⟨_, .stays, rfl, rfl, rfl, rfl, rfl⟩
  | isFull =>
    obtain ⟨r, rfl⟩ := exec_isFull_next hx
    exact ⟨_, .stays, rfl, rfl, rfl, rfl, rfl⟩
  | put b => exact exec_store_moves (.inl rfl) hx
  | emit b => exact exec_store_moves (.inr rfl) hx
  | get => exact exec_take_moves (.inl rfl) hx
  | drain => exact exec_take_moves (.inr rfl) hx

/-! ### Every step keeps the order -/

theorem exec_keeps_ringOrdered {s s' : State} {i : Instr} (hs : s.wf = true) (hord : s.ringOrdered = true)
    (hx : exec i s = .next s') : s'.ringOrdered = true := by
  obtain ⟨u, hmove, hring⟩ := exec_moves hx
  rw [hring.ringOrdered]
  cases hmove with
  | stays => exact hord
  | resets => exact State.ringOrdered_ringInit hs
  | stores hv hroom => exact State.ringOrdered_store hs hord hv hroom
  | takes hv hbyte => exact State.ringOrdered_take hs hord hv hbyte

theorem txDone_sameRing {s s' : State} (hx : txDone s = .next s') : s.SameRing s' := by
  obtain ⟨-, rfl⟩ | ⟨-, b, -, rfl⟩ := txDone_next hx <;> exact ⟨rfl, rfl, rfl, rfl, rfl⟩

theorem syncH_keeps_ringOrdered {s s' : State} (hs : s.wf = true) (hord : s.ringOrdered = true)
    (hx : syncH s = .next s') : s'.ringOrdered = true := by
  obtain ⟨-, rfl⟩ | ⟨h, t, old, new, -, hh, ht, hold, -, rfl⟩ := syncH_next hx
  · exact hord
  · have hset := State.ringOrdered_sampleHead hs hord hh ht hold
    split <;> exact hset

theorem syncT_keeps_ringOrdered {s s' : State} (hs : s.wf = true) (hord : s.ringOrdered = true)
    (hx : syncT s = .next s') : s'.ringOrdered = true := by
  obtain ⟨-, rfl⟩ | ⟨h, t, hS, hh, ht, rfl⟩ := syncT_next hx
  · exact hord
  · exact State.ringOrdered_sampleTail hs hord hS hh ht

/-- Settles O40: the well-formed states in order are kept by every command, TX_DONE and both edges. -/
theorem stepKeepsTheRingOrder : Obligations.StepKeepsTheRingOrder := by
  intro s s' hs hord hx
  refine (step_keeps (fun u => u.wf = true ∧ u.ringOrdered = true) ?_ ?_ ?_ ?_ ?_ ⟨hs, hord⟩ hx).2
  · rintro u u' hsame ⟨hu, hord⟩
    exact ⟨(State.wf_of_sameBlock hsame).trans hu, (State.ringOrdered_of_sameBlock hsame).trans hord⟩
  · rintro u u' i ⟨hu, hord⟩ hx
    exact ⟨exec_keeps_wf hu hx, exec_keeps_ringOrdered hu hord hx⟩
  · rintro u u' ⟨hu, hord⟩ hx
    exact ⟨txDone_keeps_wf hu hx, (txDone_sameRing hx).ringOrdered.trans hord⟩
  · rintro u u' ⟨hu, hord⟩ hx
    exact ⟨syncH_keeps_wf hu hx, syncH_keeps_ringOrdered hu hord hx⟩
  · rintro u u' ⟨hu, hord⟩ hx
    exact ⟨syncT_keeps_wf hu hx, syncT_keeps_ringOrdered hu hord hx⟩

end Sys2Proof.Machine
end

section
/-! SUPPORT. The gray code and the pointer code (spec/42_cdc_sync.md R132 to R134): bit by bit, its inverse from
the other side, unit steps and the mirror image, and what they say of the code words of an even capacity. -/

namespace Sys2Proof.Machine

/-! ### The gray code -/

theorem b2g_testBit (x k : Nat) : (b2g x).testBit k = Bool.xor (x.testBit k) (x.testBit (k + 1)) := by
  rw [b2g, Nat.testBit_xor, Nat.testBit_shiftRight, Nat.add_comm 1 k]

/-- The bits that the inverse starts from are the high bits of what it gives. -/
theorem g2bFrom_shiftRight (g j above : Nat) : g2bFrom g j above >>> j = above := by
  induction j generalizing above with
  | zero => rfl
  | succ j ih =>
    rw [g2bFrom, Nat.shiftRight_succ, ih]
    omega

theorem b2g_div_two (x : Nat) : b2g x / 2 = b2g (x / 2) := by
  simp only [b2g, ← Nat.shiftRight_one, Nat.shiftRight_xor_distrib]

theorem b2g_mod_two (x : Nat) : b2g x % 2 = (x + x / 2) % 2 := by
  rw [b2g, Nat.xor_mod_two_eq, Nat.shiftRight_one]

/-- If the code of the high bits is the high part of a word, the inverse completes them to the whole word. -/
theorem b2g_g2bFrom {g j above : Nat} (habove : b2g above = g >>> j) : b2g (g2bFrom g j above) = g := by
  induction j generalizing above with
  | zero => exact habove
  | succ j ih =>
    refine ih ?_
    have hbit : (above ^^^ g >>> j) % 2 = (above + g >>> j) % 2 := Nat.xor_mod_two_eq
    have hhigh : b2g above = g >>> j / 2 := habove.trans (Nat.shiftRight_succ g j)
    have hdiv := b2g_div_two (2 * above + (above ^^^ g >>> j) % 2)
    have hmod := b2g_mod_two (2 * above + (above ^^^ g >>> j) % 2)
    rw [show (2 * above + (above ^^^ g >>> j) % 2) / 2 = above by omega] at hdiv hmod
    omega

theorem g2b_lt (w g : Nat) : g2b w g < 2 ^ w := by
  have hhigh : g2b w g >>> w = 0 := g2bFrom_shiftRight g w 0
  rw [Nat.shiftRight_eq_div_pow] at hhigh
  exact Nat.lt_of_div_eq_zero (Nat.two_pow_pos w) hhigh

theorem b2g_g2b {w g : Nat} (hg : g < 2 ^ w) : b2g (g2b w g) = g := by
  refine b2g_g2bFrom ?_
  rw [Nat.shiftRight_eq_div_pow, Nat.div_eq_of_lt hg]
  rfl

/-- R132's inverse, bit by bit: each bit is the word's xor the bit above. -/
theorem g2b_testBit {w g : Nat} (hg : g < 2 ^ w) (j : Nat) :
    (g2b w g).testBit j = Bool.xor ((g2b w g).testBit (j + 1)) (g.testBit j) := by
  have hbit := b2g_testBit (g2b w g) j
  rw [b2g_g2b hg] at hbit
  rw [hbit, Bool.xor_comm, Bool.xor_assoc, Bool.xor_self, Bool.xor_false]

/-- Neighbours differ in exactly one bit (R132): on an even `x` in the lowest, else as their halves do. -/
theorem b2g_xor_succ (x : Nat) : ∃ k, b2g x ^^^ b2g (x + 1) = 2 ^ k := by
  induction x using Nat.strong_induction_on with
  | _ x ih =>
    have hdiv : (b2g x ^^^ b2g (x + 1)) / 2 = b2g (x / 2) ^^^ b2g ((x + 1) / 2) := by
      rw [Nat.xor_div_two, b2g_div_two, b2g_div_two]
    have hmod : (b2g x ^^^ b2g (x + 1)) % 2 = (x / 2 + (x + 1) / 2 + 1) % 2 := by
      have h₀ := b2g_mod_two x
      have h₁ := b2g_mod_two (x + 1)
      rw [Nat.xor_mod_two_eq]
      omega
    obtain ⟨m, rfl | rfl⟩ := Nat.even_or_odd' x
    · rw [show (2 * m + 1) / 2 = 2 * m / 2 by omega, Nat.xor_self] at hdiv
      exact ⟨0, by omega⟩
    · obtain ⟨k, hk⟩ := ih m (by omega)
      rw [show (2 * m + 1) / 2 = m by omega, show (2 * m + 1 + 1) / 2 = m + 1 by omega] at hdiv hmod
      exact ⟨k + 1, by omega⟩

/-- The mirror image about the middle differs in the top bit only (R132). -/
theorem b2g_mirror {w x : Nat} (hw : 1 ≤ w) (hx : x < 2 ^ w) :
    b2g (2 ^ w - 1 - x) = b2g x ^^^ 2 ^ (w - 1) := by
  refine Nat.eq_of_testBit_eq fun k => ?_
  have hhigh : ∀ j, w ≤ j → x.testBit j = false := fun j hj =>
    Nat.testBit_lt_two_pow (lt_of_lt_of_le hx (Nat.pow_le_pow_right two_pos hj))
  rw [show 2 ^ w - 1 - x = 2 ^ w - (x + 1) by omega]
  simp only [b2g_testBit, Nat.testBit_xor, Nat.testBit_two_pow_sub_succ hx, Nat.testBit_two_pow]
  obtain hk | rfl | hk : k + 1 < w ∨ k + 1 = w ∨ w ≤ k := by omega
  · simp [hk, show k < w by omega, show w - 1 ≠ k by omega]
  · simp [hhigh]
  · simp [hhigh, hk, show w ≤ k + 1 by omega, show w - 1 ≠ k by omega, show ¬ k < w by omega]

/-- A single bit that two words of `w` bits differ in is one of the `w`. -/
theorem bit_lt_of_xor_eq {w a b k : Nat} (ha : a < 2 ^ w) (hb : b < 2 ^ w) (hk : a ^^^ b = 2 ^ k) : k < w :=
  (Nat.pow_lt_pow_iff_right one_lt_two).mp (hk ▸ Nat.xor_lt_two_pow ha hb)

/-- Settles O16, clause by clause. -/
theorem grayCodeAndItsInverse : Obligations.GrayCodeAndItsInverse := by
  refine ⟨fun _ => rfl, fun w g j hg hj => ?_, fun w x hx => ⟨b2g_lt hx, g2b_b2g hx⟩,
    fun w g hg => ⟨g2b_lt w g, b2g_g2b hg⟩, fun w x hx => ?_, fun w x => b2g_mirror⟩
  · rw [g2b_testBit hg j]
    split
    next htop => rw [htop, Nat.testBit_lt_two_pow (g2b_lt w g), Bool.false_xor]
    next => rfl
  · obtain ⟨k, hk⟩ := b2g_xor_succ x
    exact ⟨k, bit_lt_of_xor_eq (b2g_lt (by omega)) (b2g_lt hx) hk, hk⟩

/-! ### The pointer code -/

theorem cursorBits_pos (C : Nat) : 1 ≤ cursorBits C := by
  unfold cursorBits
  split <;> omega

/-- The code words of an even capacity lie in the middle of the `2^PW` words (R133). -/
theorem two_mul_codeOffset_add {C : Nat} (hC : C % 2 = 0) : 2 * codeOffset C + C = 2 ^ cursorBits C := by
  have hle := le_two_pow_cursorBits C
  have heven : 2 ^ cursorBits C = 2 * 2 ^ (cursorBits C - 1) := by
    rw [← Nat.pow_succ', Nat.succ_eq_add_one, Nat.sub_add_cancel (cursorBits_pos C)]
  unfold codeOffset
  omega

/-- What `dec` accepts is the code word of the value it gives (R133). -/
theorem enc_of_dec {C g v : Nat} (hg : dec C g = some v) : enc C v = g := by
  simp only [dec] at hg
  split at hg
  next hword =>
    obtain ⟨hlt, hle, -⟩ := hword
    injection hg with hv
    rw [enc, ← hv, Nat.sub_add_cancel hle, b2g_g2b hlt]
  next => cases hg

/-- The last code word is the mirror image of the first (R133). -/
theorem enc_last_xor_first {C : Nat} (hC : 2 ≤ C) (heven : C % 2 = 0) :
    enc C (C - 1) ^^^ enc C 0 = 2 ^ (cursorBits C - 1) := by
  have hmid := two_mul_codeOffset_add heven
  have hmirror := b2g_mirror (x := codeOffset C) (cursorBits_pos C) (by omega)
  rw [show 2 ^ cursorBits C - 1 - codeOffset C = C - 1 + codeOffset C by omega] at hmirror
  rw [enc, enc, hmirror, Nat.zero_add, Nat.xor_comm, ← Nat.xor_assoc, Nat.xor_self, Nat.zero_xor]

/-- Settles O17, from the offset and the two inverses. -/
theorem pointerCodeRoundTrip : Obligations.PointerCodeRoundTrip := by
  intro C hC heven
  exact ⟨two_mul_codeOffset_add heven, fun i hi => ⟨enc_lt hi, dec_enc hi⟩,
    fun g v hg => ⟨dec_lt hg, enc_of_dec hg⟩, enc_last_xor_first hC heven⟩

/-- Settles O18: within the code by the gray code's unit step, from the last word to the first by the mirror. -/
theorem pointerCodeUnitDistance : Obligations.PointerCodeUnitDistance := by
  intro C i hC heven hi
  have hbit : ∃ k, enc C i ^^^ enc C (inc C i) = 2 ^ k := by
    rw [inc_eq hi]
    split
    next hlast =>
      obtain rfl : i = C - 1 := by omega
      exact ⟨_, enc_last_xor_first hC heven⟩
    next =>
      rw [enc, enc, Nat.add_right_comm]
      exact b2g_xor_succ _
  obtain ⟨k, hk⟩ := hbit
  exact ⟨k, bit_lt_of_xor_eq (enc_lt hi) (enc_lt (inc_lt hi)) hk, hk⟩

end Sys2Proof.Machine
end

section
/-! SUPPORT. The synchroniser edges run forward (spec/42_cdc_sync.md R136, R137): what each answers once
enabled, and that a consumer view that is not empty stays armed (R139, R142 c). -/

namespace Sys2Proof.Machine

/-! ### One edge -/

/-- With stages, what the consumer sees of `head` is what the head synchroniser shows (R138). -/
theorem State.seen_of_view_c {s : State} {a t : Nat} (hS : s.cfg.S ≠ 0) (hv : s.view .c = .ok (a, t)) :
    seenThrough s.cfg.C s.hs = .ok a := by
  obtain ⟨-, -, -, -, ⟨hS', -⟩ | ⟨-, hp, -⟩ | ⟨-, -, -, hseen⟩⟩ := State.view_ok hv
  · exact absurd hS' hS
  · cases hp
  · exact hseen

theorem syncH_enabled {s : State} {h t old new : Nat} (hS : s.cfg.S ≠ 0) (hh : s.head = some h)
    (ht : s.tail = some t) (hold : seenThrough s.cfg.C s.hs = .ok old)
    (hnew : seenThrough s.cfg.C (shiftIn (enc s.cfg.C h) s.hs) = .ok new) :
    syncH s = .next (if old = t ∧ new ≠ t then (s.setHs (shiftIn (enc s.cfg.C h) s.hs)).arm
      else s.setHs (shiftIn (enc s.cfg.C h) s.hs)) := by
  simp only [syncH, hh, ht, if_neg hS, hold, hnew, Bool.and_eq_true, beq_iff_eq, bne_iff_ne]

theorem syncT_enabled {s : State} {h t : Nat} (hS : s.cfg.S ≠ 0) (hh : s.head = some h)
    (ht : s.tail = some t) : syncT s = .next (s.setTs (shiftIn (enc s.cfg.C t) s.ts)) := by
  simp only [syncT, hh, ht, if_neg hS]

/-- Settles O29: both views are shown by the chain, before the edge and after it. -/
theorem syncHShiftsAndArms : Obligations.SyncHShiftsAndArms := by
  intro s
  refine ⟨syncH_disabled, fun h t old new hS hh ht hv hv' => ?_⟩
  have hS' : s.cfg.S ≠ 0 := by omega
  have hold := State.seen_of_view_c hS' hv
  have hshift : shiftIn (enc s.cfg.C h) s.hs = some (enc s.cfg.C h) :: s.hs.dropLast := by
    obtain ⟨l, g, hl, -⟩ := seenThrough_ok hold
    rw [hl, shiftIn_concat, List.dropLast_concat]
  have hnew : seenThrough s.cfg.C (shiftIn (enc s.cfg.C h) s.hs) = .ok new :=
    hshift ▸ State.seen_of_view_c (s := s.setHs (some (enc s.cfg.C h) :: s.hs.dropLast)) hS' hv'
  rw [syncH_enabled hS' hh ht hold hnew, State.arm_if, hshift]
  rfl

/-- Settles O30: the edge of a chain that ends in `last`. -/
theorem syncTShiftsOnly : Obligations.SyncTShiftsOnly := by
  intro s h t rest last hS hh ht hts
  rw [syncT_enabled (by omega) hh ht, hts, shiftIn_concat]
  rfl

/-! ### A consumer view that is not empty is armed -/

/-- With stages no command makes the consumer view non-empty: only SYNC_H shows it more (R139). -/
theorem exec_view_c_nonempty {s s' : State} {i : Instr} {a t : Nat} (hs : s.wf = true) (hS : s.cfg.S ≠ 0)
    (hx : exec i s = .next s') (hv : s'.view .c = .ok (a, t)) (hne : a ≠ t) :
    ∃ a₀ t₀, s.view .c = .ok (a₀, t₀) ∧ a₀ ≠ t₀ := by
  obtain ⟨u, hmove, hring⟩ := exec_moves hx
  rw [hring.view] at hv
  cases hmove with
  | stays => exact ⟨a, t, hv, hne⟩
  | resets =>
    obtain ⟨hc, -⟩ := State.wf_iff.mp hs
    rw [State.view_ringInit hc] at hv
    cases hv
    exact absurd rfl hne
  | stores hv' _ =>
    have ht : s.tail = some t := State.view_c_tail (s := s.setHead _) hv
    have hseen := State.seen_of_view_c (s := s.setHead _) hS hv
    exact ⟨a, t, State.view_c_seen (State.view_p_head hv') ht hS hseen, hne⟩
  | takes hv' hbyte => exact ⟨_, _, hv', hbyte⟩

theorem exec_keeps_armedForBytes {s s' : State} {i : Instr} (hs : s.wf = true) (hS : s.cfg.S ≠ 0)
    (harmed : s.armedForBytes) (hx : exec i s = .next s') : s'.armedForBytes := by
  intro a t hv hne
  obtain ⟨a₀, t₀, hv₀, hne₀⟩ := exec_view_c_nonempty hs hS hx hv hne
  obtain hsame | ⟨hon, -⟩ | ⟨-, -, k, hempty⟩ := exec_armed hx
  · exact hsame.trans (harmed a₀ t₀ hv₀ hne₀)
  · exact hon
  · rw [hempty] at hv₀
    cases hv₀
    exact absurd rfl hne₀

/-- SYNC_H arms where the view was empty; where it was not, it is armed already (R139). -/
theorem syncH_keeps_armedForBytes {s s' : State} (harmed : s.armedForBytes) (hx : syncH s = .next s') :
    s'.armedForBytes := by
  obtain ⟨-, rfl⟩ | ⟨h, t, old, new, hS, hh, ht, hold, hnew, rfl⟩ := syncH_next hx
  · exact harmed
  · intro a t' hv hne
    split at hv
    next hedge => rw [if_pos hedge]; rfl
    next hedge =>
      rw [if_neg hedge]
      obtain rfl : t' = t := Option.some.inj ((State.view_c_tail hv).symm.trans ht)
      have hseen := State.seen_of_view_c (s := s.setHs (shiftIn (enc s.cfg.C h) s.hs)) hS hv
      obtain rfl : a = new := Except.ok.inj (hseen.symm.trans hnew)
      exact harmed old t' (State.view_c_seen hh ht hS hold) fun he => hedge ⟨he, hne⟩

/-- Settles O45: commands show the consumer no more, TX_DONE and SYNC_T nothing else, and SYNC_H arms. -/
theorem nonEmptyConsumerViewIsArmed : Obligations.NonEmptyConsumerViewIsArmed := by
  intro s s' hs hS harmed hx
  refine (step_keeps (fun u => u.wf = true ∧ u.cfg.S ≠ 0 ∧ u.armedForBytes) ?_ ?_ ?_ ?_ ?_
    ⟨hs, by omega, harmed⟩ hx).2.2
  · rintro u u' hsame ⟨hu, hS, harmed⟩
    refine ⟨(State.wf_of_sameBlock hsame).trans hu, ?_⟩
    rw [show u' = _ from hsame]
    exact ⟨hS, harmed⟩
  · rintro u u' i ⟨hu, hS, harmed⟩ hx
    obtain ⟨-, hcfg, -⟩ := exec_constants hx
    exact ⟨exec_keeps_wf hu hx, hcfg ▸ hS, exec_keeps_armedForBytes hu hS harmed hx⟩
  · rintro u u' ⟨hu, hS, harmed⟩ hx
    refine ⟨txDone_keeps_wf hu hx, ?_⟩
    obtain ⟨-, rfl⟩ | ⟨-, b, -, rfl⟩ := txDone_next hx <;> exact ⟨hS, harmed⟩
  · rintro u u' ⟨hu, hS, harmed⟩ hx
    have hcfg : u'.cfg = u.cfg := by obtain h | h := syncH_frame hx <;> rw [h] <;> rfl
    exact ⟨syncH_keeps_wf hu hx, hcfg ▸ hS, syncH_keeps_armedForBytes harmed hx⟩
  · rintro u u' ⟨hu, hS, harmed⟩ hx
    refine ⟨syncT_keeps_wf hu hx, ?_⟩
    rw [syncT_frame hx]
    exact ⟨hS, harmed⟩

end Sys2Proof.Machine
end

section
/-! SUPPORT. What the edges bring to the other side (spec/42_cdc_sync.md R136, R137, R143, R144): `S` edges fill a
chain with the cursor's word, and along a fair run a producer with room comes to see it. -/

namespace Sys2Proof.Machine

/-! ### As many edges as stages -/

/-- As many edges as there are older samples leave only samples of the one word. -/
theorem iterate_shiftIn (g : Nat) (old : List (Option Nat)) (k : Nat) :
    (shiftIn g)^[old.length] (List.replicate k (some g) ++ old) =
      List.replicate (k + old.length) (some g) := by
  induction old using List.reverseRecOn generalizing k with
  | nil => simp
  | append_singleton old last ih =>
    have hrest := ih (k + 1)
    rw [List.length_append, List.length_singleton, Function.iterate_succ_apply, ← List.append_assoc,
      shiftIn_concat, ← List.cons_append, ← List.replicate_succ, hrest]
    congr 1
    omega

/-- `S` edges make a synchroniser of `S` stages show the cursor. -/
theorem seenThrough_iterate_shiftIn {C S i : Nat} {chain : List (Option Nat)} (hS : S ≠ 0)
    (hlen : chain.length = S) (hi : i < C) :
    seenThrough C ((shiftIn (enc C i))^[S] chain) = .ok i := by
  have hfill := iterate_shiftIn (enc C i) chain 0
  rw [List.replicate_zero, List.nil_append, hlen, Nat.zero_add] at hfill
  rw [hfill, seenThrough_replicate hS hi]

/-- In a well-formed state an enabled SYNC_H completes. -/
theorem syncH_completes {s : State} {h t : Nat} (hs : s.wf = true) (hS : s.cfg.S ≠ 0)
    (hh : s.head = some h) (ht : s.tail = some t) :
    ∃ u, syncH s = .next u ∧ u.cfg = s.cfg ∧ u.head = s.head ∧ u.tail = s.tail ∧
      u.hs = shiftIn (enc s.cfg.C h) s.hs := by
  obtain ⟨-, -, hcur, ⟨hhs, -⟩, -⟩ := State.wf_iff.mp hs
  have hhl := (State.cursors_of_head hcur hh).1
  obtain ⟨old, hold, -⟩ := State.seenThrough_of_chainOk hh hS hhs
  obtain ⟨new, hnew, -⟩ := State.seenThrough_of_chainOk hh hS (State.chainOk_shiftIn hh hhl hhs)
  refine ⟨_, syncH_enabled hS hh ht hold hnew, ?_⟩
  split <;> exact ⟨rfl, rfl, rfl, rfl⟩

theorem syncHTimes_completes {h t : Nat} (n : Nat) :
    ∀ {s : State}, s.wf = true → s.cfg.S ≠ 0 → s.head = some h → s.tail = some t →
      ∃ u, syncHTimes n s = .next u ∧ u.cfg = s.cfg ∧ u.head = some h ∧ u.tail = some t ∧
        u.hs = (shiftIn (enc s.cfg.C h))^[n] s.hs := by
  induction n with
  | zero => exact fun _ _ hh ht => ⟨_, rfl, rfl, hh, ht, rfl⟩
  | succ n ih =>
    intro s hs hS hh ht
    obtain ⟨u, hu, hcfg, hhead, htail, hchain⟩ := syncH_completes hs hS hh ht
    obtain ⟨v, hv, hcfg', hhead', htail', hchain'⟩ :=
      ih (syncH_keeps_wf hs hu) (hcfg ▸ hS) (hhead.trans hh) (htail.trans ht)
    refine ⟨v, ?_, hcfg'.trans hcfg, hhead', htail', ?_⟩
    · simp only [syncHTimes, hu, hv]
    · rw [hchain', hchain, hcfg, Function.iterate_succ_apply]

theorem syncTTimes_eq {h t : Nat} (n : Nat) :
    ∀ {s : State}, s.cfg.S ≠ 0 → s.head = some h → s.tail = some t →
      syncTTimes n s = .next (s.setTs ((shiftIn (enc s.cfg.C t))^[n] s.ts)) := by
  induction n with
  | zero => exact fun _ _ _ => rfl
  | succ n ih =>
    intro s hS hh ht
    simp only [syncTTimes, syncT_enabled hS hh ht]
    exact ih (s := s.setTs (shiftIn (enc s.cfg.C t) s.ts)) hS hh ht

/-- `S` edges of a synchroniser bring its cursor to the other side, exactly (R136, R137). -/
theorem syncTimes_bring_cursors {s : State} {h t : Nat} (hs : s.wf = true) (hS : s.cfg.S ≠ 0)
    (hh : s.head = some h) (ht : s.tail = some t) :
    (∃ u, syncHTimes s.cfg.S s = .next u ∧ u.view .c = .ok (h, t) ∧ u.head = some h ∧
      u.tail = some t) ∧
    (∃ u, syncTTimes s.cfg.S s = .next u ∧ u.view .p = .ok (h, t) ∧ u.head = some h ∧
      u.tail = some t) := by
  obtain ⟨-, -, -, ⟨hhs, hts⟩, -⟩ := State.wf_iff.mp hs
  obtain ⟨hhl, htl⟩ := State.cursors_lt hs hh ht
  obtain ⟨hlenH, -⟩ := (State.chainOk_some hh).mp hhs
  obtain ⟨hlenT, -⟩ := (State.chainOk_some hh).mp hts
  have hseenT := seenThrough_iterate_shiftIn hS hlenT htl
  constructor
  · obtain ⟨u, hu, hcfg, hhead, htail, hchain⟩ := syncHTimes_completes s.cfg.S hs hS hh ht
    have hseenH : seenThrough u.cfg.C u.hs = .ok h := by
      rw [hchain, hcfg, seenThrough_iterate_shiftIn hS hlenH hhl]
    exact ⟨u, hu, State.view_c_seen hhead htail (hcfg ▸ hS) hseenH, hhead, htail⟩
  · exact ⟨_, syncTTimes_eq s.cfg.S hS hh ht, State.view_p_seen (s := s.setTs _) hh ht hS hseenT, hh, ht⟩

/-! ### Waiting for room to be seen -/

/-- The producer sees that there is room (R59, R94). -/
def State.seesRoom (s : State) : Prop :=
  ∃ h t, s.view .p = .ok (h, t) ∧ fullFlag s.cfg.C h t = false

/-- There is room, with `head` at `h`, and the `k` youngest samples of `tail` show it; the older ones need not. -/
structure State.AwaitsRoom (s : State) (h k : Nat) : Prop where
  head : s.head = some h
  room : ∃ t, s.tail = some t ∧ inc s.cfg.C h ≠ t
  young : ∀ stage ∈ s.ts.take k, stage ≠ some (enc s.cfg.C (inc s.cfg.C h))

theorem State.AwaitsRoom.of_sameRing {s u : State} {h k : Nat} (hw : s.AwaitsRoom h k)
    (hring : s.SameRing u) : u.AwaitsRoom h k where
  head := hring.head.trans hw.head
  room := by rw [hring.cfg, hring.tail]; exact hw.room
  young := by rw [hring.cfg, hring.ts]; exact hw.young

theorem State.AwaitsRoom.mono {s : State} {h j k : Nat} (hw : s.AwaitsRoom h k) (hjk : j ≤ k) :
    s.AwaitsRoom h j where
  head := hw.head
  room := hw.room
  young := fun stage hmem => hw.young stage ((List.take_subset_take_left _ hjk) hmem)

theorem inc_inj {C a b : Nat} (ha : a < C) (hb : b < C) (he : inc C a = inc C b) : a = b := by
  rw [inc_eq ha, inc_eq hb] at he
  split_ifs at he <;> omega

theorem enc_inj {C a b : Nat} (ha : a < C) (hb : b < C) (he : enc C a = enc C b) : a = b := by
  have hdec := dec_enc ha
  rw [he, dec_enc hb] at hdec
  exact (Option.some.inj hdec).symm

/-- With synchronisers there are two slots at least (R131). -/
theorem two_le_of_stages {c : Config} (hc : validInstance c = true) (hS : c.S ≠ 0) : 2 ≤ c.C := by
  simp only [validInstance, Bool.and_eq_true, Bool.or_eq_true, decide_eq_true_eq, beq_iff_eq] at hc
  omega

/-- Once all the samples show it, the producer sees the room. -/
theorem State.AwaitsRoom.seesRoom {s : State} {h : Nat} (hs : s.wf = true) (hS : s.cfg.S ≠ 0)
    (hw : s.AwaitsRoom h s.cfg.S) : s.seesRoom := by
  obtain ⟨-, -, -, ⟨-, hts⟩, -⟩ := State.wf_iff.mp hs
  obtain ⟨t, ht, -⟩ := hw.room
  obtain ⟨v, hseen, -⟩ := State.seenThrough_of_chainOk hw.head hS hts
  obtain ⟨l, g, hl, hg⟩ := seenThrough_ok hseen
  obtain ⟨hlen, -⟩ := (State.chainOk_some hw.head).mp hts
  refine ⟨h, v, State.view_p_seen hw.head ht hS hseen, beq_false_of_ne ?_⟩
  rintro rfl
  refine hw.young (some g) ?_ (by rw [enc_of_dec hg])
  rw [List.take_of_length_le hlen.le, hl]
  simp

/-- A sample of `tail` shows the room that there is (R137). -/
theorem State.AwaitsRoom.syncT {s s' : State} {h k : Nat} (hs : s.wf = true) (hS : s.cfg.S ≠ 0)
    (hw : s.AwaitsRoom h k) (hx : syncT s = .next s') : s'.AwaitsRoom h (k + 1) := by
  obtain ⟨t, ht, hroom⟩ := hw.room
  obtain ⟨hhl, htl⟩ := State.cursors_lt hs hw.head ht
  rw [syncT_enabled hS hw.head ht] at hx
  injection hx with hx
  subst hx
  refine ⟨hw.head, ⟨t, ht, hroom⟩, fun stage hmem => ?_⟩
  have hmem' := ((List.dropLast_prefix _).take (k + 1)).subset hmem
  rw [List.take_succ_cons] at hmem'
  obtain rfl | hmem' := List.mem_cons.mp hmem'
  · exact fun he => hroom (enc_inj htl (inc_lt hhl) (Option.some.inj he)).symm
  · exact hw.young stage hmem'

/-- While the producer sees no room it stores nothing, and a take makes more room; INIT shows it room. -/
theorem RingMove.awaitsRoom {s u : State} {h k : Nat} (hs : s.wf = true) (hord : s.ringOrdered = true)
    (hS : s.cfg.S ≠ 0) (hw : s.AwaitsRoom h k) (hno : ¬ s.seesRoom) (hmove : RingMove s u) :
    u.seesRoom ∨ u.AwaitsRoom h k := by
  cases hmove with
  | stays => exact .inr hw
  | resets =>
    obtain ⟨hc, -⟩ := State.wf_iff.mp hs
    have hroom := inc_ne_self (two_le_of_stages hc hS) (validInstance_pos hc)
    exact .inl ⟨0, 0, State.view_ringInit hc .p, beq_false_of_ne hroom⟩
  | stores hv hroom => exact absurd ⟨_, _, hv, beq_false_of_ne hroom⟩ hno
  | takes hv hbyte =>
    have ht := State.view_c_tail hv
    obtain ⟨hhl, htl⟩ := State.cursors_lt hs hw.head ht
    have hthere := State.not_empty_of_view hs hord hw.head ht hv hbyte
    exact .inr ⟨hw.head, ⟨_, rfl, fun he => hthere (inc_inj hhl htl he)⟩, hw.young⟩

/-- A turn that is no command's leaves the samples that show room. -/
theorem edge_awaitsRoom {s s' : State} {h k : Nat} (hs : s.wf = true) (hS : s.cfg.S ≠ 0)
    (hw : s.AwaitsRoom h k) (hx : txDone s = .next s' ∨ syncH s = .next s' ∨ syncT s = .next s') :
    s'.AwaitsRoom h k := by
  obtain hx | hx | hx := hx
  · exact hw.of_sameRing (txDone_sameRing hx)
  · obtain h | h := syncH_frame hx <;> rw [h] <;> exact ⟨hw.head, hw.room, hw.young⟩
  · exact (hw.syncT hs hS hx).mono (Nat.le_succ k)

theorem State.SameRing.seesRoom {s u : State} (hring : s.SameRing u) : u.seesRoom ↔ s.seesRoom := by
  simp only [State.seesRoom, hring.view, hring.cfg]

/-- A step leaves the samples that show room, as long as the producer sees none. -/
theorem step_awaitsRoom {s s' : State} {h k : Nat} (hs : s.wf = true) (hord : s.ringOrdered = true)
    (hS : s.cfg.S ≠ 0) (hw : s.AwaitsRoom h k) (hno : ¬ s.seesRoom) (hx : step s = .next s') :
    s'.seesRoom ∨ s'.AwaitsRoom h k := by
  have hring : ∀ {u}, s.sameBlock u → s.SameRing u := State.SameRing.of_sameBlock
  have hwf : ∀ {u}, s.sameBlock u → u.wf = true := fun hu => (State.wf_of_sameBlock hu).trans hs
  have hstages : ∀ {u}, s.sameBlock u → u.cfg.S ≠ 0 := fun hu => (hring hu).cfg ▸ hS
  have hwait : ∀ {u}, s.sameBlock u → u.AwaitsRoom h k := fun hu => hw.of_sameRing (hring hu)
  obtain ⟨-, hu | ⟨i, u, hu, hx⟩ | ⟨u, hu, hx⟩ | ⟨u, hu, hx⟩ | ⟨u, hu, hx⟩⟩ := step_cases hx
  · exact .inr (hwait hu)
  · obtain ⟨v, hmove, hv⟩ := exec_moves hx
    have hord' := (hring hu).ringOrdered.trans hord
    have hno' := mt (hring hu).seesRoom.mp hno
    obtain hsees | hw' := hmove.awaitsRoom (hwf hu) hord' (hstages hu) (hwait hu) hno'
    · exact .inl (hv.seesRoom.mpr hsees)
    · exact .inr (hw'.of_sameRing hv)
  · exact .inr (edge_awaitsRoom (hwf hu) (hstages hu) (hwait hu) (.inl hx))
  · exact .inr (edge_awaitsRoom (hwf hu) (hstages hu) (hwait hu) (.inr (.inl hx)))
  · exact .inr (edge_awaitsRoom (hwf hu) (hstages hu) (hwait hu) (.inr (.inr hx)))

/-- The step of SYNC_T's turn is SYNC_T. -/
theorem step_of_turn_syncT {s s' : State} (hturn : s.turn = .syncT) (hx : step s = .next s') :
    syncT s.advance = .next s' := by
  unfold step State.takeStep at hx
  split at hx
  · rwa [hturn] at hx
  · cases hx

/-! ### Along a run -/

/-- What holds of every state of a run from a well-formed, ring-ordered one on, with its parameters. -/
structure State.SoundWith (c : Config) (s : State) : Prop where
  wf : s.wf = true
  ordered : s.ringOrdered = true
  cfg : s.cfg = c

theorem IsRun.soundWith {r : Nat → State} (hr : IsRun r) {c : Config} {n : Nat}
    (hn : (r n).SoundWith c) {m : Nat} (hm : n ≤ m) : (r m).SoundWith c := by
  refine hr.keeps (P := State.SoundWith c) (fun s s' hs hx => ?_) (fun s s' hin hs => ?_) hn hm
  · obtain ⟨-, hcfg⟩ := noStepChangesGieOrTheInstance s s' hx
    exact ⟨stepKeepsWellFormed s s' hs.wf hx, stepKeepsTheRingOrder s s' hs.wf hs.ordered hx,
      hcfg.trans hs.cfg⟩
  · have hsame := State.sameBlock_of_sameButInputs hin
    exact ⟨(State.wf_of_sameBlock hsame).trans hs.wf,
      (State.ringOrdered_of_sameBlock hsame).trans hs.ordered,
      (State.SameRing.of_sameBlock hsame).cfg.trans hs.cfg⟩

section
variable {r : Nat → State} {c : Config} {n h : Nat}

/-- As long as the producer sees no room, the samples that show it stay. -/
theorem IsRun.awaitsRoom (hr : IsRun r) (hS : c.S ≠ 0) (hsound : ∀ m, n ≤ m → (r m).SoundWith c)
    (hno : ∀ m, n ≤ m → ¬ (r m).seesRoom) {k m m' : Nat} (hnm : n ≤ m) (hw : (r m).AwaitsRoom h k)
    (hm : m ≤ m') : (r m').AwaitsRoom h k := by
  induction m', hm using Nat.le_induction with
  | base => exact hw
  | succ m' hm ih =>
    have hs := hsound m' (by omega)
    obtain ⟨s', hx, hin⟩ := hr m'
    have hring := State.SameRing.of_sameBlock (State.sameBlock_of_sameButInputs hin)
    obtain hsees | hw' :=
      step_awaitsRoom hs.wf hs.ordered (hs.cfg ▸ hS) ih (hno m' (by omega)) hx
    · exact absurd (hring.seesRoom.mpr hsees) (hno (m' + 1) (by omega))
    · exact hw'.of_sameRing hring

/-- Fairness brings one SYNC_T after another, each with a sample that shows the room (R144, R233). -/
theorem IsRun.awaitsRoom_all (hr : IsRun r) (hfair : FairSyncT r) (hS : c.S ≠ 0)
    (hsound : ∀ m, n ≤ m → (r m).SoundWith c) (hno : ∀ m, n ≤ m → ¬ (r m).seesRoom)
    (hn : (r n).AwaitsRoom h 0) (k : Nat) : ∃ m, n ≤ m ∧ (r m).AwaitsRoom h k := by
  induction k with
  | zero => exact ⟨n, le_rfl, hn⟩
  | succ k ih =>
    obtain ⟨m, hnm, hw⟩ := ih
    have henabled : ∀ m', m ≤ m' → (r m').syncEnabled = true := by
      intro m' hm
      have hw' := hr.awaitsRoom hS hsound hno hnm hw hm
      obtain ⟨t, ht, -⟩ := hw'.room
      have hstages : 1 ≤ (r m').cfg.S := by rw [(hsound m' (by omega)).cfg]; omega
      simp [State.syncEnabled, hw'.head, ht, hstages]
    obtain ⟨m', hm, hturn⟩ := hfair m henabled
    have hw' := hr.awaitsRoom hS hsound hno hnm hw hm
    have hs := hsound m' (by omega)
    obtain ⟨s', hx, hin⟩ := hr m'
    have hadv := State.sameBlock_advance (r m')
    have hring := State.SameRing.of_sameBlock hadv
    have hmore := (hw'.of_sameRing hring).syncT ((State.wf_of_sameBlock hadv).trans hs.wf)
      (by rw [hring.cfg, hs.cfg]; exact hS) (step_of_turn_syncT hturn hx)
    exact ⟨m' + 1, by omega,
      hmore.of_sameRing (State.SameRing.of_sameBlock (State.sameBlock_of_sameButInputs hin))⟩

end

/-- Settles O31: were the room never seen, fair edges would fill the chain with samples that show it. -/
theorem cursorsReachTheOtherSide : Obligations.CursorsReachTheOtherSide := by
  refine ⟨fun s h t hs hS => syncTimes_bring_cursors hs (by omega), ?_⟩
  intro r n h t hr hfair hs hord hS hh ht hroom
  by_contra hnone
  have hS' : (r n).cfg.S ≠ 0 := by omega
  have hno : ∀ m, n ≤ m → ¬ (r m).seesRoom :=
    fun m hm ⟨h', t', hsees⟩ => hnone ⟨m, h', t', hm, hsees⟩
  have hsound : ∀ m, n ≤ m → (r m).SoundWith (r n).cfg := fun m => hr.soundWith ⟨hs, hord, rfl⟩
  have hn : (r n).AwaitsRoom h 0 := ⟨hh, ⟨t, ht, ne_of_beq_false hroom⟩, by simp⟩
  obtain ⟨m, hm, hw⟩ := hr.awaitsRoom_all hfair hS' hsound hno hn (r n).cfg.S
  have hcfg := (hsound m hm).cfg
  rw [← hcfg] at hw hS'
  exact hno m hm (hw.seesRoom (hsound m hm).wf hS')

end Sys2Proof.Machine
end

section
/-! SUPPORT. The byte in flight (spec/43_transmitter_device.md R164, spec/70_reset_and_hazards.md R233): TX_DONE
alone ends its flight, and in a fair run it does. -/

namespace Sys2Proof.Machine

/-! ### TX_DONE -/

/-- TX_DONE on a free register changes nothing (log 7). -/
theorem txDone_of_free {s : State} (hfree : s.txfree = true) : txDone s = .next s := by
  simp [txDone, hfree]

/-- TX_DONE finishes the byte in flight (R164). -/
theorem txDone_of_busy {s : State} {b : Byte} (hbusy : s.txfree = false) (hreg : s.txreg = some b) :
    txDone s = .next (s.finishByte b) := by
  simp [txDone, hbusy, hreg]

/-- Settles O28: TX_DONE is `finishByte`, which leaves `armed` and `gie` and frees the register. -/
theorem txDoneFinishesTheByte : Obligations.TxDoneFinishesTheByte := by
  refine fun s => ⟨txDone_of_free, fun b hbusy hreg => ⟨s.finishByte b, txDone_of_busy hbusy hreg, rfl, ?_⟩⟩
  exact fun harmed hgie => State.drainEnabled_iff.mpr ⟨harmed, rfl, hgie⟩

/-! ### The byte in flight along a run -/

/-- The byte `b` is in flight, and the bytes `l` stand on the wire. -/
structure State.Sending (b : Byte) (l : List Byte) (s : State) : Prop where
  busy : s.txfree = false
  reg : s.txreg = some b
  line : s.line = l

/-- The register is free, and `b` stands on the wire right after the bytes `l`. -/
structure State.Sent (b : Byte) (l : List Byte) (s : State) : Prop where
  free : s.txfree = true
  line : s.line = l ++ [b]

section
variable {s s' : State} {b : Byte} {l : List Byte}

theorem State.Sending.of_sameBlock (hs : s.Sending b l) (hsame : s.sameBlock s') : s'.Sending b l := by
  rw [show s' = _ from hsame]
  exact ⟨hs.busy, hs.reg, hs.line⟩

theorem State.Sent.of_sameBlock (hs : s.Sent b l) (hsame : s.sameBlock s') : s'.Sent b l := by
  rw [show s' = _ from hsame]
  exact ⟨hs.free, hs.line⟩

/-- While a byte is in flight no command touches the device: a DRAIN hands over to a free register only (R115). -/
theorem exec_keeps_sending {i : Instr} (hs : s.Sending b l) (hx : exec i s = .next s') :
    s'.Sending b l := by
  obtain ⟨-, -, hline⟩ := exec_constants hx
  obtain ⟨hfree, hreg, -⟩ | ⟨-, hfree, -⟩ := exec_device hx
  · exact ⟨hfree.trans hs.busy, hreg.trans hs.reg, hline.trans hs.line⟩
  · exact Bool.noConfusion (hfree.symm.trans hs.busy)

theorem txDone_sends (hs : s.Sending b l) (hx : txDone s = .next s') : s'.Sent b l := by
  rw [txDone_of_busy hs.busy hs.reg] at hx
  injection hx with hx
  subst hx
  exact ⟨rfl, congrArg (· ++ [b]) hs.line⟩

theorem syncH_keeps_sending (hs : s.Sending b l) (hx : syncH s = .next s') : s'.Sending b l := by
  obtain h | h := syncH_frame hx <;> rw [h] <;> exact ⟨hs.busy, hs.reg, hs.line⟩

theorem syncT_keeps_sending (hs : s.Sending b l) (hx : syncT s = .next s') : s'.Sending b l := by
  rw [syncT_frame hx]
  exact ⟨hs.busy, hs.reg, hs.line⟩

/-- A step leaves the byte in flight or puts it on the wire. -/
theorem step_sending (hs : s.Sending b l) (hx : step s = .next s') :
    s'.Sending b l ∨ s'.Sent b l := by
  obtain ⟨-, hu | ⟨i, u, hu, hx⟩ | ⟨u, hu, hx⟩ | ⟨u, hu, hx⟩ | ⟨u, hu, hx⟩⟩ := step_cases hx
  · exact .inl (hs.of_sameBlock hu)
  · exact .inl (exec_keeps_sending (hs.of_sameBlock hu) hx)
  · exact .inr (txDone_sends (hs.of_sameBlock hu) hx)
  · exact .inl (syncH_keeps_sending (hs.of_sameBlock hu) hx)
  · exact .inl (syncT_keeps_sending (hs.of_sameBlock hu) hx)

/-- The step of TX_DONE's turn puts the byte in flight on the wire. -/
theorem step_sends_of_turn_txDone (hs : s.Sending b l) (hturn : s.turn = .txDone)
    (hx : step s = .next s') : s'.Sent b l := by
  have hdone : txDone s.advance = .next s' := by
    unfold step State.takeStep at hx
    split at hx
    · rwa [hturn] at hx
    · cases hx
  exact txDone_sends (hs.of_sameBlock (State.sameBlock_advance s)) hdone

end

section
variable {r : Nat → State} {n : Nat} {b : Byte} {l : List Byte}

/-- Along a run the byte is in flight as long as it has not been sent. -/
theorem IsRun.sending_until (hr : IsRun r) (hn : (r n).Sending b l)
    (hno : ∀ m, n < m → ¬ (r m).Sent b l) {m : Nat} (hm : n ≤ m) : (r m).Sending b l := by
  induction m, hm using Nat.le_induction with
  | base => exact hn
  | succ m hm ih =>
    obtain ⟨s', hx, hin⟩ := hr m
    have hsame := State.sameBlock_of_sameButInputs hin
    obtain hsending | hsent := step_sending ih hx
    · exact hsending.of_sameBlock hsame
    · exact absurd (hsent.of_sameBlock hsame) (hno (m + 1) (by omega))

/-- A run that is fair to the device sends the byte in flight. -/
theorem IsRun.sends (hr : IsRun r) (hfair : FairTxDone r) (hn : (r n).Sending b l) :
    ∃ m, n < m ∧ (r m).Sent b l := by
  by_contra hnone
  have hsending : ∀ m, n ≤ m → (r m).Sending b l :=
    fun m => hr.sending_until hn fun k hk hsent => hnone ⟨k, hk, hsent⟩
  obtain ⟨m, hm, hturn⟩ := hfair n fun m hm => (hsending m hm).busy
  obtain ⟨s', hx, hin⟩ := hr m
  have hsent := step_sends_of_turn_txDone (hsending m hm) hturn hx
  exact hnone ⟨m + 1, by omega, hsent.of_sameBlock (State.sameBlock_of_sameButInputs hin)⟩

end

/-- Settles O54: were the byte never sent, it would stay in flight for ever, and a fair TX_DONE would send it. -/
theorem fairRunsFinishTheByteInFlight : Obligations.FairRunsFinishTheByteInFlight := by
  intro r n b hr hfair hbusy hreg
  obtain ⟨m, hm, hsent⟩ := hr.sends hfair ⟨hbusy, hreg, rfl⟩
  exact ⟨m, hm, hsent.free, hsent.line⟩

end Sys2Proof.Machine
end

section
/-! SUPPORT. Text, line ends and integers as the print helpers emit them (spec/44_host_sequences.md R176 to R179,
R181): the digit buffer holds `Nat.digits 10` of a magnitude that fits it. -/

namespace Sys2Proof.Machine

/-! ### Texts and line ends -/

/-- A text without the terminator is emitted whole (R176). -/
theorem printBytes_of_noTerminator {text : List Byte} (h : ∀ b, b ∈ text → b ≠ 0x00#8) :
    printBytes text = text :=
  List.takeWhile_eq_self_iff.2 fun b hb => bne_iff_ne.2 (h b hb)

/-- The `LN` form of PRINT_INT emits what the plain form does, and then the line end (R179). -/
theorem callBytes_printIntLn_of_printInt {n : Int} {bytes : List Byte} (h : callBytes (.printInt n) = .ok bytes) :
    callBytes (.printIntLn n) = .ok (bytes ++ crlf) := by
  cases h
  rfl

/-- The `LN` form of PRINT_FLOAT emits what the plain form does, and then the line end (R181). -/
theorem callBytes_printFloatLn_of_printFloat {v : BitVec 32} {dp : Byte} {bytes : List Byte}
    (h : callBytes (.printFloat v dp) = .ok bytes) :
    callBytes (.printFloatLn v dp) = .ok (bytes ++ crlf) := by
  by_cases hout : floatOutOfRange v = true
  · simp [callBytes, hout] at h
  · obtain rfl : printFloatBytes v dp.toNat = bytes := by simpa [callBytes, hout] using h
    simp [callBytes, hout]

/-- Settles O57: `takeWhile` keeps a text without 0x00, and each `LN` form appends `crlf`. -/
theorem printAndLineEndings : Obligations.PrintAndLineEndings := by
  refine ⟨fun text htext => ?_, fun _ _ => callBytes_printIntLn_of_printInt,
    fun _ _ _ => callBytes_printFloatLn_of_printFloat⟩
  have hbytes := printBytes_of_noTerminator htext
  exact ⟨congrArg Except.ok hbytes, congrArg (Except.ok <| · ++ crlf) hbytes⟩

/-! ### Decimal digits -/

/-- A magnitude that fits the buffer leaves its decimal digits there (R178). -/
theorem digitsLow_eq_digits (room m : Nat) (h : m < 10 ^ room) : digitsLow room m = Nat.digits 10 m := by
  induction room generalizing m with
  | zero =>
    obtain rfl : m = 0 := by simpa using h
    rfl
  | succ room ih =>
    obtain rfl | hm := Nat.eq_zero_or_pos m
    · rfl
    · have hrest : m / 10 < 10 ^ room := Nat.div_lt_of_lt_mul (by rwa [Nat.pow_succ'] at h)
      rw [Nat.digits_def' (by decide) hm, digitsLow, if_neg hm.ne', ih _ hrest]

/-- The decimal digits of a magnitude as they are printed, most significant first; one digit for 0. -/
def decimalDigits (m : Nat) : List Nat := if m = 0 then [0] else (Nat.digits 10 m).reverse

@[simp] theorem decimalDigits_zero : decimalDigits 0 = [0] := rfl

theorem decimalDigits_of_ne_zero {m : Nat} (hm : m ≠ 0) : decimalDigits m = (Nat.digits 10 m).reverse :=
  if_neg hm

theorem decimalBytes_eq_map_decimalDigits {m : Nat} (h : m < 10 ^ 10) :
    decimalBytes m = (decimalDigits m).map digitChar := by
  by_cases hm : m = 0
  · subst hm
    rfl
  · rw [decimalBytes, if_neg hm, digitsLow_eq_digits 10 m h, decimalDigits_of_ne_zero hm]

theorem decimalDigits_lt_ten {m d : Nat} (hd : d ∈ decimalDigits m) : d < 10 := by
  by_cases hm : m = 0
  · subst hm
    obtain rfl : d = 0 := by simpa using hd
    decide
  · rw [decimalDigits_of_ne_zero hm, List.mem_reverse] at hd
    exact Nat.digits_lt_base (by decide) hd

theorem decimalDigits_length_le {m room : Nat} (hroom : 0 < room) (h : m < 10 ^ room) :
    (decimalDigits m).length ≤ room := by
  by_cases hm : m = 0
  · subst hm
    exact hroom
  · rw [decimalDigits_of_ne_zero hm, List.length_reverse]
    exact (Nat.digits_length_le_iff (by decide) m).2 h

theorem decimalDigits_ne_nil (m : Nat) : decimalDigits m ≠ [] := by
  by_cases hm : m = 0
  · subst hm
    simp
  · rw [decimalDigits_of_ne_zero hm, List.reverse_ne_nil_iff]
    exact Nat.digits_ne_nil_iff_ne_zero.2 hm

/-- Read from the left, the digits give the magnitude back. -/
theorem foldl_decimalDigits (m : Nat) : (decimalDigits m).foldl (fun acc d => acc * 10 + d) 0 = m := by
  by_cases hm : m = 0
  · subst hm
    rfl
  · have hfold := Nat.ofDigits_eq_foldr 10 (Nat.digits 10 m)
    rw [Nat.ofDigits_digits] at hfold
    rw [decimalDigits_of_ne_zero hm, List.foldl_reverse]
    simpa [Nat.mul_comm, Nat.add_comm] using hfold.symm

/-- A magnitude other than 0 has no leading zero. -/
theorem decimalDigits_head?_ne_zero {m : Nat} (hm : m ≠ 0) : (decimalDigits m).head? ≠ some 0 := by
  have hnil : Nat.digits 10 m ≠ [] := Nat.digits_ne_nil_iff_ne_zero.2 hm
  rw [decimalDigits_of_ne_zero hm, List.head?_reverse, List.getLast?_eq_some_getLast hnil]
  simpa using Nat.getLast_digit_ne_zero 10 hm

/-- Settles O58: a magnitude of at most 2^31 fits the buffer of 10 digits, so all its digits are printed. -/
theorem printIntIsDecimal : Obligations.PrintIntIsDecimal := by
  intro n hlow hhigh
  have hfits : n.natAbs < 10 ^ 10 := by omega
  refine ⟨decimalDigits n.natAbs, ?_, fun _ => decimalDigits_lt_ten, decimalDigits_length_le (by decide) hfits,
    decimalDigits_ne_nil _, foldl_decimalDigits _, ?_, fun hn => decimalDigits_head?_ne_zero (by omega)⟩
  · rw [callBytes, printIntBytes, decimalBytes_eq_map_decimalDigits hfits]
    rfl
  · rintro rfl
    rfl

end Sys2Proof.Machine
end

section
/-! SUPPORT. The binary32 arithmetic of PRINT_FLOAT (spec/44_host_sequences.md R180, R184; log 14): rounding goes to
the nearest multiple of the last of 24 significant bits, and a magnitude that has no more bits than that is exact, so
that taking off an integer part never rounds. -/

namespace Sys2Proof.Machine

/-! ### Rounding -/

/-- `k` is a nearest quotient of `n` by `unit`, and the even one when two are nearest. -/
structure NearestEven (n unit k : Nat) : Prop where
  below : 2 * n ≤ 2 * (k * unit) + unit
  above : 2 * (k * unit) ≤ 2 * n + unit
  tie : 2 * n = 2 * (k * unit) + unit ∨ 2 * (k * unit) = 2 * n + unit → k % 2 = 0

/-- How many low bits rounding drops: all but 24. -/
def cutBits (n : Nat) : Nat := Nat.log2 n + 1 - 24

theorem cutBits_le {n c : Nat} (h : n < 2 ^ (24 + c)) : cutBits n ≤ c := by
  obtain rfl | hn := Nat.eq_zero_or_pos n
  · simp [cutBits]
  · have hlog := (Nat.log2_lt hn.ne').2 h
    unfold cutBits
    omega

theorem le_cutBits {n c : Nat} (h : 2 ^ (23 + c) ≤ n) : c ≤ cutBits n := by
  have hn : n ≠ 0 := fun hn => by simp [hn] at h
  have hlog := (Nat.le_log2 hn).2 h
  unfold cutBits
  omega

/-- What is left once the dropped bits are cut off has at most 24 bits. -/
theorem lt_two_pow_cutBits (n : Nat) : n < 2 ^ 24 * 2 ^ cutBits n := by
  rw [← Nat.pow_add]
  have hpow : 2 ^ (Nat.log2 n + 1) ≤ 2 ^ (24 + cutBits n) :=
    Nat.pow_le_pow_right (by decide) (by unfold cutBits; omega)
  exact Nat.lt_of_lt_of_le Nat.lt_log2_self hpow

theorem NearestEven.down {n unit kept rest : Nat} (hn : kept * unit + rest = n) (hrest : 2 * rest ≤ unit)
    (heven : unit = 2 * rest → kept % 2 = 0) : NearestEven n unit kept := by
  constructor <;> omega

theorem NearestEven.up {n unit kept rest : Nat} (hn : kept * unit + rest = n) (hlt : rest < unit)
    (hrest : unit ≤ 2 * rest) (hodd : unit = 2 * rest → kept % 2 = 1) : NearestEven n unit (kept + 1) := by
  have hmul := Nat.add_one_mul kept unit
  constructor <;> omega

/-- Rounding counts one more unit when the dropped bits are over half of one, or half and the count is odd (R184). -/
theorem roundUnits_eq (n : Nat) : roundUnits n =
    (if 2 ^ cutBits n < 2 * (n % 2 ^ cutBits n) ∨
        2 ^ cutBits n = 2 * (n % 2 ^ cutBits n) ∧ n / 2 ^ cutBits n % 2 = 1
      then n / 2 ^ cutBits n + 1 else n / 2 ^ cutBits n) * 2 ^ cutBits n := by
  refine congrArg (· * 2 ^ cutBits n) (if_congr ?_ rfl rfl)
  rw [Bool.or_eq_true, Bool.and_eq_true, decide_eq_true_iff, decide_eq_true_iff, beq_iff_eq]
  rfl

theorem roundUnits_nearestEven (n : Nat) :
    ∃ k, roundUnits n = k * 2 ^ cutBits n ∧ NearestEven n (2 ^ cutBits n) k := by
  refine ⟨_, roundUnits_eq n, ?_⟩
  have hsplit := Nat.div_add_mod' n (2 ^ cutBits n)
  have hrest := Nat.mod_lt n (Nat.two_pow_pos (cutBits n))
  split
  case isTrue hup => exact .up hsplit hrest (by omega) (by omega)
  case isFalse hup => exact .down hsplit (by omega) (by omega)

/-- Rounding up adds half a unit at most. -/
theorem roundUnits_le {n c : Nat} (h : n < 2 ^ (24 + c)) : 2 * roundUnits n ≤ 2 * n + 2 ^ c := by
  obtain ⟨k, hround, hnear⟩ := roundUnits_nearestEven n
  have hunit : 2 ^ cutBits n ≤ 2 ^ c := Nat.pow_le_pow_right (by decide) (cutBits_le h)
  have habove := hnear.above
  rw [← hround] at habove
  omega

/-- A multiple of the unit is its own nearest multiple. -/
theorem NearestEven.eq_of_mul {unit q k : Nat} (hunit : 0 < unit) (h : NearestEven (q * unit) unit k) : k = q := by
  have hbelow : 2 * q < 2 * (k + 1) := Nat.lt_of_mul_lt_mul_right (a := unit) (by linarith [h.below])
  have habove : 2 * k < 2 * (q + 1) := Nat.lt_of_mul_lt_mul_right (a := unit) (by linarith [h.above])
  omega

/-! ### Exact magnitudes -/

/-- A magnitude of at most 24 significant bits. -/
def Exact (n : Nat) : Prop := ∃ m e, m < 2 ^ 24 ∧ n = m * 2 ^ e

theorem roundUnits_of_exact {n : Nat} (h : Exact n) : roundUnits n = n := by
  obtain ⟨m, e, hm, hn⟩ := h
  obtain ⟨k, hround, hnear⟩ := roundUnits_nearestEven n
  have hlt : n < 2 ^ (24 + e) := by
    rw [hn, Nat.pow_add]
    exact Nat.mul_lt_mul_of_pos_right hm (Nat.two_pow_pos e)
  obtain ⟨q, hq⟩ : 2 ^ cutBits n ∣ m * 2 ^ e := Dvd.dvd.mul_left (Nat.pow_dvd_pow 2 (cutBits_le hlt)) m
  rw [← hn, Nat.mul_comm] at hq
  have hk : k = q := by
    refine NearestEven.eq_of_mul (Nat.two_pow_pos (cutBits n)) ?_
    rwa [← hq]
  rw [hround, hk, ← hq]

theorem exact_roundUnits (n : Nat) : Exact (roundUnits n) := by
  obtain ⟨k, hround, hnear⟩ := roundUnits_nearestEven n
  have hk : 2 * k < 2 ^ 25 + 1 := by
    refine Nat.lt_of_mul_lt_mul_right (a := 2 ^ cutBits n) ?_
    linarith [hnear.above, lt_two_pow_cutBits n]
  obtain hlt | hcarry : k < 2 ^ 24 ∨ k = 2 ^ 24 := by omega
  · exact ⟨k, cutBits n, hlt, hround⟩
  · refine ⟨2 ^ 23, cutBits n + 1, by decide, ?_⟩
    rw [hround, hcarry, Nat.pow_succ 2 (cutBits n)]
    ring

/-- Splitting an exact magnitude at any bit leaves two exact ones. -/
theorem Exact.split {n : Nat} (h : Exact n) (p : Nat) :
    Exact (n / 2 ^ p * 2 ^ p) ∧ Exact (n % 2 ^ p) := by
  obtain ⟨m, e, hm, hn⟩ := h
  obtain hpe | hep := Nat.le_total p e
  · have hdvd : 2 ^ p ∣ n := hn ▸ Dvd.dvd.mul_left (Nat.pow_dvd_pow 2 hpe) m
    rw [Nat.div_mul_cancel hdvd, Nat.mod_eq_zero_of_dvd hdvd]
    exact ⟨⟨m, e, hm, hn⟩, ⟨0, 0, by decide, rfl⟩⟩
  · have hpow : 2 ^ p = 2 ^ (p - e) * 2 ^ e := by rw [← Nat.pow_add, Nat.sub_add_cancel hep]
    constructor
    · refine ⟨m / 2 ^ (p - e), p, Nat.lt_of_le_of_lt (Nat.div_le_self _ _) hm, ?_⟩
      rw [hn, hpow, Nat.mul_div_mul_right _ _ (Nat.two_pow_pos e)]
    · refine ⟨m % 2 ^ (p - e), e, Nat.lt_of_le_of_lt (Nat.mod_le _ _) hm, ?_⟩
      rw [hn, hpow, Nat.mul_mod_mul_right]

/-- An exact magnitude below a power of two is one unit of the last of 24 bits away from it at least. -/
theorem Exact.le_of_lt_two_pow {n c : Nat} (h : Exact n) (hlt : n < 2 ^ (24 + c)) :
    n + 2 ^ c ≤ 2 ^ (24 + c) := by
  obtain ⟨m, e, hm, rfl⟩ := h
  rw [Nat.pow_add]
  obtain hce | hec := Nat.le_total c e
  · have hpow : 2 ^ e = 2 ^ (e - c) * 2 ^ c := by rw [← Nat.pow_add, Nat.sub_add_cancel hce]
    rw [Nat.pow_add, hpow, ← Nat.mul_assoc] at hlt
    rw [hpow, ← Nat.mul_assoc, ← Nat.succ_mul]
    exact Nat.mul_le_mul_right _ (Nat.lt_of_mul_lt_mul_right hlt)
  · calc m * 2 ^ e + 2 ^ c ≤ m * 2 ^ c + 2 ^ c :=
          Nat.add_le_add_right (Nat.mul_le_mul_left m (Nat.pow_le_pow_right (by decide) hec)) _
      _ = (m + 1) * 2 ^ c := (Nat.succ_mul _ _).symm
      _ ≤ 2 ^ 24 * 2 ^ c := Nat.mul_le_mul_right _ hm

/-- Taking the integer part off an exact magnitude never rounds, and leaves its fraction. -/
theorem roundUnits_sub_integerPart {n : Nat} (h : Exact n) :
    roundUnits (n - unitsOfNat (truncUnits n)) = n % oneInUnits := by
  obtain ⟨hint, hfrac⟩ := h.split 149
  have hunits : unitsOfNat (truncUnits n) = n / oneInUnits * oneInUnits := roundUnits_of_exact hint
  rw [hunits, ← Nat.mod_eq_sub_div_mul]
  exact roundUnits_of_exact hfrac

/-! ### Fraction digits -/

/-- The next digit of a fraction (R180). -/
def nextDigit (f : Nat) : Nat := truncUnits (roundUnits (f * 10))

/-- The fraction that the next digit leaves (R180). -/
def nextFraction (f : Nat) : Nat := roundUnits (f * 10) % oneInUnits

theorem fractionBytes_succ (dp f : Nat) :
    fractionBytes (dp + 1) f = digitChar (nextDigit f) :: fractionBytes dp (nextFraction f) := by
  rw [fractionBytes, roundUnits_sub_integerPart (exact_roundUnits _)]
  rfl

/-- The first `dp` digits of a fraction. -/
def fractionDigits (dp f : Nat) : List Nat := (List.range dp).map fun k => nextDigit (nextFraction^[k] f)

@[simp] theorem length_fractionDigits (dp f : Nat) : (fractionDigits dp f).length = dp := by
  simp [fractionDigits]

theorem eq_nextDigit_of_getElem? {dp f k d : Nat} (hd : (fractionDigits dp f)[k]? = some d) :
    d = nextDigit (nextFraction^[k] f) := by
  obtain ⟨_, rfl⟩ := List.getElem?_eq_some_iff.1 hd
  simp [fractionDigits]

theorem fractionBytes_eq_map_fractionDigits (dp f : Nat) :
    fractionBytes dp f = (fractionDigits dp f).map digitChar := by
  induction dp generalizing f with
  | zero => rfl
  | succ dp ih =>
    rw [fractionBytes_succ, ih]
    simp [fractionDigits, List.range_succ_eq_map, Function.comp_def]

/-- An exact magnitude below 1. -/
structure IsFraction (f : Nat) : Prop where
  exact : Exact f
  lt_one : f < oneInUnits

theorem Exact.isFraction_mod {n : Nat} (h : Exact n) : IsFraction (n % oneInUnits) :=
  ⟨(h.split 149).2, Nat.mod_lt _ (Nat.two_pow_pos 149)⟩

theorem IsFraction.iterate {f : Nat} (h : IsFraction f) (k : Nat) : IsFraction (nextFraction^[k] f) := by
  cases k with
  | zero => exact h
  | succ k =>
    rw [Function.iterate_succ_apply']
    exact (exact_roundUnits _).isFraction_mod

/-- Ten times a fraction stays more than half a unit of rounding below 10, so it does not round up to 10. -/
theorem IsFraction.nextDigit_lt_ten {f : Nat} (h : IsFraction f) : nextDigit f < 10 := by
  have hlt := h.lt_one
  have hgap : f + 2 ^ 125 ≤ oneInUnits := h.exact.le_of_lt_two_pow (c := 125) hlt
  have hround : 2 * roundUnits (f * 10) ≤ 2 * (f * 10) + 2 ^ 129 :=
    roundUnits_le (c := 129) (by unfold oneInUnits at hlt; omega)
  unfold oneInUnits at hgap
  exact Nat.div_lt_of_lt_mul (by unfold oneInUnits; omega)

/-! ### The words PRINT_FLOAT accepts -/

section
variable {v : BitVec 32}

theorem isPrintableFloat_iff_field : isPrintableFloat v = true ↔ (v.extractLsb' 23 8).toNat < 158 :=
  decide_eq_true_iff

theorem floatUnits_of_field_eq_zero (h : (v.extractLsb' 23 8).toNat = 0) :
    floatUnits v = (v.extractLsb' 0 23).toNat := if_pos h

theorem floatUnits_of_field_ne_zero (h : (v.extractLsb' 23 8).toNat ≠ 0) :
    floatUnits v = (2 ^ 23 + (v.extractLsb' 0 23).toNat) * 2 ^ ((v.extractLsb' 23 8).toNat - 1) := if_neg h

theorem exact_floatUnits (v : BitVec 32) : Exact (floatUnits v) := by
  have hfraction := (v.extractLsb' 0 23).isLt
  by_cases hfield : (v.extractLsb' 23 8).toNat = 0
  · exact ⟨_, 0, by omega, (floatUnits_of_field_eq_zero hfield).trans (Nat.mul_one _).symm⟩
  · exact ⟨_, _, by omega, floatUnits_of_field_ne_zero hfield⟩

/-- The magnitude is below 2^31 for just the exponent fields below 127 + 31. -/
theorem floatUnits_lt_iff_field : floatUnits v < 2 ^ 31 * 2 ^ 149 ↔ (v.extractLsb' 23 8).toNat < 158 := by
  have hfraction := (v.extractLsb' 0 23).isLt
  by_cases hfield : (v.extractLsb' 23 8).toNat = 0
  · rw [floatUnits_of_field_eq_zero hfield]
    omega
  rw [floatUnits_of_field_ne_zero hfield]
  constructor
  · intro hlt
    by_contra hlarge
    have hpow : 2 ^ 157 ≤ 2 ^ ((v.extractLsb' 23 8).toNat - 1) := Nat.pow_le_pow_right (by decide) (by omega)
    have hmul := Nat.mul_le_mul (Nat.le_add_right (2 ^ 23) (v.extractLsb' 0 23).toNat) hpow
    omega
  · intro hsmall
    have hpow : 2 ^ ((v.extractLsb' 23 8).toNat - 1) ≤ 2 ^ 156 := Nat.pow_le_pow_right (by decide) (by omega)
    calc (2 ^ 23 + (v.extractLsb' 0 23).toNat) * 2 ^ ((v.extractLsb' 23 8).toNat - 1)
        ≤ (2 ^ 23 + (v.extractLsb' 0 23).toNat) * 2 ^ 156 := Nat.mul_le_mul_left _ hpow
      _ < 2 ^ 31 * 2 ^ 149 := by omega

theorem isPrintableFloat_iff :
    isPrintableFloat v = true ↔ (v.extractLsb' 23 8).toNat ≠ 255 ∧ floatUnits v < 2 ^ 31 * 2 ^ 149 := by
  rw [isPrintableFloat_iff_field, floatUnits_lt_iff_field]
  omega

/-- What the model refuses is what is not printable (R184). -/
theorem floatOutOfRange_eq_not_isPrintableFloat : floatOutOfRange v = !isPrintableFloat v := by
  have hiff := isPrintableFloat_iff (v := v)
  have hout : floatOutOfRange v = true ↔
      (v.extractLsb' 23 8).toNat = 255 ∨ 2 ^ 31 * 2 ^ 149 ≤ floatUnits v := by
    rw [floatOutOfRange, Bool.or_eq_true, decide_eq_true_iff, decide_eq_true_iff]
    rfl
  rw [Bool.eq_iff_iff, hout, Bool.not_eq_true', ← Bool.not_eq_true, hiff]
  omega

theorem callBytes_printFloat (v : BitVec 32) (dp : Byte) : callBytes (.printFloat v dp) =
    if isPrintableFloat v then .ok (printFloatBytes v dp.toNat) else .error .floatRange := by
  cases hv : isPrintableFloat v <;> simp [callBytes, floatOutOfRange_eq_not_isPrintableFloat, hv]

theorem callBytes_printFloatLn (v : BitVec 32) (dp : Byte) : callBytes (.printFloatLn v dp) =
    if isPrintableFloat v then .ok (printFloatBytes v dp.toNat ++ crlf) else .error .floatRange := by
  cases hv : isPrintableFloat v <;> simp [callBytes, floatOutOfRange_eq_not_isPrintableFloat, hv]

end

/-- Settles O60: the range check of both forms is the negation of `isPrintableFloat`. -/
theorem floatRangeIsRefused : Obligations.FloatRangeIsRefused := by
  intro v dp
  refine ⟨?_, ?_, isPrintableFloat_iff⟩
  · cases hv : isPrintableFloat v <;> simp [callBytes_printFloat, hv]
  · cases hv : isPrintableFloat v <;> simp [callBytes_printFloatLn, hv]

/-- The bytes of PRINT_FLOAT, with the fraction of the magnitude spelt out (R180). -/
theorem printFloatBytes_eq (v : BitVec 32) (dp : Nat) : printFloatBytes v dp =
    (if floatSign v = true ∧ floatUnits v ≠ 0 then [0x2D#8] else []) ++
      printIntBytes (truncUnits (floatUnits v) : Int) ++ (if dp = 0 then [] else [0x2E#8]) ++
      (fractionDigits dp (floatUnits v % oneInUnits)).map digitChar := by
  rw [printFloatBytes, roundUnits_sub_integerPart (exact_floatUnits v), fractionBytes_eq_map_fractionDigits]
  cases dp <;> simp [fractionDigits]

/-- Rounding is to nearest, ties to even, at the place that leaves 24 significant bits (R184). -/
theorem roundUnits_nearest {n cut : Nat}
    (h : (n < 2 ^ 24 ∧ cut = 0) ∨ (2 ^ (23 + cut) ≤ n ∧ n < 2 ^ (24 + cut))) :
    ∃ k, roundUnits n = k * 2 ^ cut ∧ NearestEven n (2 ^ cut) k := by
  have hcut : cutBits n = cut := by
    obtain ⟨hlt, rfl⟩ | ⟨hle, hlt⟩ := h
    · exact Nat.le_zero.1 (cutBits_le hlt)
    · exact Nat.le_antisymm (cutBits_le hlt) (le_cutBits hle)
  exact hcut ▸ roundUnits_nearestEven n

/-- Settles O59: the fractions are the iterates of `nextFraction`, all of them exact and below 1. -/
theorem printFloatEmitsDigits : Obligations.PrintFloatEmitsDigits := by
  refine ⟨fun n cut h => ?_, fun v dp hv => ?_⟩
  · obtain ⟨k, hround, hbelow, habove, htie⟩ := roundUnits_nearest h
    rw [← hround] at hbelow habove htie
    exact ⟨k, hround, hbelow, habove, htie⟩
  have hfraction : IsFraction (floatUnits v % oneInUnits) := (exact_floatUnits v).isFraction_mod
  obtain ⟨-, hrange⟩ := isPrintableFloat_iff.1 hv
  refine ⟨fractionDigits dp.toNat (floatUnits v % oneInUnits), (nextFraction^[·] (floatUnits v % oneInUnits)),
    ?_, ?_, by omega, rfl, ?_⟩
  · rw [callBytes_printFloat, if_pos hv, printFloatBytes_eq]
    rfl
  · exact length_fractionDigits _ _
  · intro k d hd
    obtain rfl := eq_nextDigit_of_getElem? hd
    exact ⟨rfl, (hfraction.iterate k).nextDigit_lt_ten,
      (Function.iterate_succ_apply' nextFraction k _).trans Nat.mod_eq_sub_div_mul⟩

end Sys2Proof.Machine
end

section
/-! SUPPORT. Power-on (spec/70_reset_and_hazards.md R220), field by field. -/

namespace Sys2Proof.Machine

/-- Settles O12: `State.powerOn` is R220 written out, and `State.reset` is it for the standard parameters. -/
theorem powerOnState : Obligations.PowerOnState :=
  ⟨fun _ => ⟨fun _ => rfl, rfl, rfl, rfl, rfl, rfl, rfl, rfl, rfl, rfl, rfl, rfl, rfl, rfl⟩, rfl⟩

end Sys2Proof.Machine
end

section
/-! SUPPORT. What a step of a driver's run does to the bytes on their way to the wire
(spec/70_reset_and_hazards.md R223, R224, spec/43_transmitter_device.md R164): a command appends to the queue or
hands its first byte to the device, TX_DONE puts the byte in flight on the wire, and nothing gets lost. -/

namespace Sys2Proof.Machine

/-! ### The command that a step performs -/

@[simp] theorem State.advance_pq (s : State) : s.advance.pq = s.pq := by
  unfold State.advance
  split <;> rfl

theorem State.attempted_of_producer {s : State} {w : CmdWord} {i : Instr} {rest : List Request}
    (hturn : s.turn = .producer) (hq : s.pq = .word w :: rest) (hw : decode w = .ok i) :
    s.attempted = some i := by
  simp [State.attempted, hturn, hq, hw, Except.toOption]

theorem State.attempted_of_consumer {s : State} {w : CmdWord} {i : Instr} {rest : List CmdWord}
    (hturn : s.turn = .consumer) (hq : s.cq = w :: rest) (hw : decode w = .ok i) :
    s.attempted = some i := by
  simp [State.attempted, hturn, hq, hw, Except.toOption]

theorem State.attempted_of_drain {s : State} (hturn : s.turn = .drain) : s.attempted = some .drain := by
  simp [State.attempted, hturn]

theorem State.attemptsDrain.attempted {s : State} (hs : s.attemptsDrain) : s.attempted = some .drain := by
  obtain hturn | ⟨hturn, w, rest, hq, hw⟩ := hs
  · exact State.attempted_of_drain hturn
  · exact State.attempted_of_consumer hturn hq hw

/-- What a step can do, with the command it attempts: a command performed is the one attempted, and an
attempted DRAIN that changes nothing was not enabled. -/
theorem step_cases_attempted {s s' : State} (hx : step s = .next s') :
    (s.sameBlock s' ∧ (s.attempted = some .drain → s.drainEnabled = false)) ∨
      (∃ i u, s.attempted = some i ∧ s.sameBlock u ∧ exec i u = .next s') ∨
      (s.attempted = none ∧ ∃ u, s.sameBlock u ∧
        (txDone u = .next s' ∨ syncH u = .next s' ∨ syncT u = .next s')) := by
  have hadv := State.sameBlock_advance s
  have hen := State.drainEnabled_of_sameBlock hadv
  unfold step State.takeStep at hx
  split at hx
  case isFalse => cases hx
  case isTrue =>
    cases hturn : s.turn <;> rw [hturn] at hx <;> simp only [State.runTurn] at hx
    case producer =>
      unfold State.producerTurn at hx
      split at hx
      next hq =>
        injection hx with hx
        rw [State.advance_pq] at hq
        exact .inl ⟨hx ▸ hadv, by simp [State.attempted, hturn, hq]⟩
      next w rest hq =>
        rw [State.advance_pq] at hq
        obtain ⟨i, hi, ⟨-, hp, -⟩ | hx⟩ := State.issueWord_next hx
        · cases hp
        · have hcmd := State.attempted_of_producer hturn hq hi
          exact .inr (.inl ⟨i, _, hcmd, State.sameBlock_trans hadv (by rfl), hx⟩)
      next c rest hq =>
        rw [State.advance_pq] at hq
        split at hx
        next =>
          injection hx with hx
          exact .inl ⟨State.sameBlock_trans hadv (hx ▸ rfl), by simp [State.attempted, hturn, hq]⟩
        next => cases hx
    case consumer =>
      unfold State.consumerTurn at hx
      split at hx
      next hq =>
        injection hx with hx
        rw [State.advance_cq] at hq
        exact .inl ⟨hx ▸ hadv, by simp [State.attempted, hturn, hq]⟩
      next w rest hq =>
        rw [State.advance_cq] at hq
        obtain ⟨i, hi, ⟨-, -, hoff, rfl⟩ | hx⟩ := State.issueWord_next hx
        · exact .inl ⟨hadv, fun _ => hen.symm.trans hoff⟩
        · have hcmd := State.attempted_of_consumer hturn hq hi
          exact .inr (.inl ⟨i, _, hcmd, State.sameBlock_trans hadv (by rfl), hx⟩)
    case drain =>
      unfold State.drainTurn at hx
      split at hx
      next =>
        exact .inr (.inl ⟨_, _, State.attempted_of_drain hturn, State.sameBlock_trans hadv (by rfl), hx⟩)
      next hoff =>
        injection hx with hx
        exact .inl ⟨hx ▸ hadv, fun _ => hen.symm.trans (Bool.eq_false_iff.mpr hoff)⟩
    case txDone => exact .inr (.inr ⟨by simp [State.attempted, hturn], _, hadv, .inl hx⟩)
    case syncH => exact .inr (.inr ⟨by simp [State.attempted, hturn], _, hadv, .inr (.inl hx)⟩)
    case syncT => exact .inr (.inr ⟨by simp [State.attempted, hturn], _, hadv, .inr (.inr hx)⟩)

/-! ### What a driver's command does -/

/-- Nothing moves but what is queued behind: the device, the wire and `tail` stay. -/
def State.Queues (s s' : State) : Prop :=
  s'.txfree = s.txfree ∧ s'.txreg = s.txreg ∧ s'.line = s.line ∧ s'.tail = s.tail ∧ s.queue <+: s'.queue

/-- The first byte of the queue goes into the free output register (R115, R165). -/
def State.HandsOver (s s' : State) : Prop :=
  s.txfree = true ∧ s'.txfree = false ∧ s'.line = s.line ∧ s.queue = s'.txreg :: s'.queue

/-- The byte in flight goes onto the wire (R164). -/
def State.Finishes (s s' : State) : Prop :=
  s.txfree = false ∧ s'.txfree = true ∧ s'.queue = s.queue ∧
    s'.line.map some = s.line.map some ++ [s.txreg]

/-- What a step of a driver's run does to the bytes, and to the samples of `head` (R136, R223). -/
def State.Advances (s s' : State) : Prop :=
  s'.cfg = s.cfg ∧ (s'.hs = s.hs ∨ ∃ h, s.head = some h ∧ s'.hs = shiftIn (enc s.cfg.C h) s.hs) ∧
    (s.Queues s' ∨ s.HandsOver s' ∨ s.Finishes s')

section
variable {s u s' : State}

theorem State.Queues.of_sameBlock (hsame : s.sameBlock s') : s.Queues s' := by
  rw [show s' = _ from hsame]
  exact ⟨rfl, rfl, rfl, rfl, List.prefix_rfl⟩

theorem State.Advances.cfg_eq (hadv : s.Advances s') : s'.cfg = s.cfg := hadv.1

theorem State.Advances.of_sameBlock (hsame : s.sameBlock s') : s.Advances s' := by
  refine ⟨?_, .inl ?_, .inl (.of_sameBlock hsame)⟩ <;> rw [show s' = _ from hsame]

theorem State.Advances.after_sameBlock (hsame : s.sameBlock u) (hadv : u.Advances s') : s.Advances s' := by
  rw [show u = _ from hsame] at hadv
  exact hadv

theorem State.Advances.before_sameBlock (hadv : s.Advances u) (hsame : u.sameBlock s') : s.Advances s' := by
  rw [show s' = _ from hsame]
  exact hadv

/-- Where there is room `head` has somewhere to go. -/
theorem inc_ne_self_of_room {C h t : Nat} (hh : h < C) (ht : t < C) (hroom : inc C h ≠ t) :
    inc C h ≠ h := by
  rw [inc_eq hh] at hroom ⊢
  split_ifs at hroom ⊢ <;> omega

theorem exec_store_extends_queue {i : Instr} {b : Byte} (hs : s.wf = true) (hord : s.ringOrdered = true)
    (hi : i = .put b ∨ i = .emit b) (hx : exec i s = .next s') : s.queue <+: s'.queue := by
  obtain ⟨h, t', hv, ⟨-, hst, hkept⟩ | ⟨hroom, -, -, hnew⟩⟩ := exec_store_cases hi hx
  · have hsame : s'.queue = s.queue := by
      refine State.queue_congr ?_ hst hkept ?_ <;> rw [exec_store_frame hi hx]
    rw [hsame]
  · have hh := State.view_p_head hv
    obtain ⟨-, t, -, ht, -⟩ := State.view_ok hv
    obtain ⟨hhl, htl⟩ := State.cursors_lt hs hh ht
    have hthere := State.not_full_of_view hs hord hh ht hv hroom
    have hmove : s'.head ≠ s.head := by
      rw [hnew, hh]
      exact fun he => inc_ne_self_of_room hhl htl hthere (Option.some.inj he)
    rw [exec_store_queue hs hord hi hx hmove]
    exact List.prefix_append _ _

theorem exec_store_advances {i : Instr} {b : Byte} (hs : s.wf = true) (hord : s.ringOrdered = true)
    (hi : i = .put b ∨ i = .emit b) (hx : exec i s = .next s') : s.Advances s' := by
  have hqueue := exec_store_extends_queue hs hord hi hx
  have hframe := exec_store_frame hi hx
  refine ⟨?_, .inl ?_, .inl ⟨?_, ?_, ?_, ?_, hqueue⟩⟩ <;> rw [hframe]

/-- A DRAIN that finds a byte hands it over (R115). -/
theorem exec_drain_hands_over {h t : Nat} (hs : s.wf = true) (hord : s.ringOrdered = true)
    (hen : s.drainEnabled = true) (hv : s.view .c = .ok (h, t)) (hbyte : h ≠ t)
    (hx : exec .drain s = .next s') : s.HandsOver s' := by
  obtain ⟨-, ⟨hoff, -⟩ | ⟨-, h', t', hv', hcase⟩⟩ := exec_drain_next hx
  · exact Bool.noConfusion (hen.symm.trans hoff)
  · obtain ⟨rfl, rfl⟩ : h = h' ∧ t = t' := Prod.mk.inj (Except.ok.inj (hv.symm.trans hv'))
    obtain ⟨he, -⟩ | ⟨-, -, b, hb, rfl⟩ := hcase
    · exact absurd he hbyte
    · obtain ⟨-, hfree, -⟩ := State.drainEnabled_iff.mp hen
      obtain ⟨h₀, hh⟩ := State.head_of_view hv
      have ht := State.view_c_tail hv
      obtain ⟨hhl, htl⟩ := State.cursors_lt hs hh ht
      have hthere := State.not_empty_of_view hs hord hh ht hv hbyte
      refine ⟨hfree, rfl, rfl, ?_⟩
      rw [State.queue_take hh ht hhl htl hthere, hb]
      rfl

theorem exec_drain_advances (hs : s.wf = true) (hord : s.ringOrdered = true)
    (hx : exec .drain s = .next s') : s.Advances s' := by
  obtain ⟨-, ⟨-, rfl⟩ | ⟨hen, h, t, hv, ⟨-, rfl⟩ | ⟨hbyte, -, b, -, hs'⟩⟩⟩ := exec_drain_next hx
  · exact .of_sameBlock (State.sameBlock_refl _)
  · exact ⟨rfl, .inl rfl, .inl ⟨rfl, rfl, rfl, rfl, List.prefix_rfl⟩⟩
  · refine ⟨?_, .inl ?_, .inr (.inl (exec_drain_hands_over hs hord hen hv hbyte hx))⟩ <;> rw [hs'] <;> rfl

theorem State.respond_advances (r : RespWord) : s.Advances (s.respond r) :=
  ⟨rfl, .inl rfl, .inl ⟨rfl, rfl, rfl, rfl, List.prefix_rfl⟩⟩

/-- What a driver's command does: INIT, BEGIN and GET would lose or divert bytes. -/
theorem exec_advances {i : Instr} (hs : s.wf = true) (hord : s.ringOrdered = true) (hinit : i ≠ .init)
    (hget : i ≠ .get) (hbegin : ∀ n, i ≠ .begin n) (hx : exec i s = .next s') : s.Advances s' := by
  cases i with
  | init => exact absurd rfl hinit
  | get => exact absurd rfl hget
  | begin n => exact absurd rfl (hbegin n)
  | isEmpty =>
    obtain ⟨r, rfl⟩ := exec_isEmpty_next hx
    exact State.respond_advances r
  | isFull =>
    obtain ⟨r, rfl⟩ := exec_isFull_next hx
    exact State.respond_advances r
  | put b => exact exec_store_advances hs hord (.inl rfl) hx
  | emit b => exact exec_store_advances hs hord (.inr rfl) hx
  | drain => exact exec_drain_advances hs hord hx

/-! ### What a step does -/

theorem txDone_advances (hx : txDone s = .next s') : s.Advances s' := by
  obtain ⟨-, rfl⟩ | ⟨hbusy, b, hreg, rfl⟩ := txDone_next hx
  · exact .of_sameBlock (State.sameBlock_refl _)
  · refine ⟨rfl, .inl rfl, .inr (.inr ⟨hbusy, rfl, rfl, ?_⟩)⟩
    rw [hreg]
    exact List.map_append

theorem syncH_advances (hx : syncH s = .next s') : s.Advances s' := by
  obtain ⟨-, rfl⟩ | ⟨h, t, old, new, -, hh, -, -, -, rfl⟩ := syncH_next hx
  · exact .of_sameBlock (State.sameBlock_refl _)
  · split <;> exact ⟨rfl, .inr ⟨h, hh, rfl⟩, .inl ⟨rfl, rfl, rfl, rfl, List.prefix_rfl⟩⟩

theorem syncT_advances (hx : syncT s = .next s') : s.Advances s' := by
  rw [syncT_frame hx]
  exact ⟨rfl, .inl rfl, .inl ⟨rfl, rfl, rfl, rfl, List.prefix_rfl⟩⟩

theorem step_advances (hs : s.wf = true) (hord : s.ringOrdered = true) (hdriver : s.keepsToDriver)
    (hx : step s = .next s') : s.Advances s' := by
  obtain ⟨hsame, -⟩ | ⟨i, u, hi, hu, hx⟩ | ⟨-, u, hu, hx⟩ := step_cases_attempted hx
  · exact .of_sameBlock hsame
  · obtain ⟨hinit, hget, hbegin, -⟩ := hdriver i hi
    exact .after_sameBlock hu (exec_advances ((State.wf_of_sameBlock hu).trans hs)
      ((State.ringOrdered_of_sameBlock hu).trans hord) hinit hget hbegin hx)
  · obtain hx | hx | hx := hx
    · exact .after_sameBlock hu (txDone_advances hx)
    · exact .after_sameBlock hu (syncH_advances hx)
    · exact .after_sameBlock hu (syncT_advances hx)

/-- The step that attempts an enabled DRAIN performs it. -/
theorem step_drains (hattempt : s.attemptsDrain) (hen : s.drainEnabled = true) (hx : step s = .next s') :
    ∃ u, s.sameBlock u ∧ exec .drain u = .next s' := by
  have hdrain := hattempt.attempted
  obtain ⟨-, hoff⟩ | ⟨i, u, hi, hu, hx⟩ | ⟨hnone, -⟩ := step_cases_attempted hx
  · exact Bool.noConfusion (hen.symm.trans (hoff hdrain))
  · obtain rfl : i = .drain := Option.some.inj (hi.symm.trans hdrain)
    exact ⟨u, hu, hx⟩
  · cases hnone.symm.trans hdrain

/-! ### Nothing gets lost -/

/-- What stands on the wire and then what is owed to it. -/
def State.deliveries (s : State) : List (Option Byte) := s.line.map some ++ s.owed

theorem State.line_prefix_deliveries (s : State) : s.line.map some <+: s.deliveries := List.prefix_append _ _

/-- A byte changes places between queue, device and wire without changing its place in the order (R58). -/
theorem State.Advances.deliveries_prefix (hadv : s.Advances s') : s.deliveries <+: s'.deliveries := by
  unfold State.deliveries State.owed
  obtain ⟨-, -, ⟨hfree, hreg, hline, -, hqueue⟩ | ⟨hfree, hbusy, hline, hqueue⟩ |
    ⟨hbusy, hfree, hqueue, hline⟩⟩ := hadv
  · rw [hfree, hreg, hline]
    exact (List.prefix_append_right_inj _).mpr ((List.prefix_append_right_inj _).mpr hqueue)
  · simp [hfree, hbusy, hline, hqueue]
  · simp [hfree, hbusy, hline, hqueue]

theorem State.Advances.line_length_le (hadv : s.Advances s') : s.line.length ≤ s'.line.length := by
  obtain ⟨-, -, ⟨-, -, hline, -⟩ | ⟨-, -, hline, -⟩ | ⟨-, -, -, hline⟩⟩ := hadv
  · rw [hline]
  · rw [hline]
  · have hlen := congrArg List.length hline
    simp only [List.length_map, List.length_append, List.length_singleton] at hlen
    omega

/-- A step that leaves the register free took nothing from the queue. -/
theorem State.Advances.queues (hadv : s.Advances s') (hfree : s.txfree = true) (hfree' : s'.txfree = true) :
    s.Queues s' := by
  obtain ⟨-, -, hqueues | ⟨-, hbusy, -⟩ | ⟨hbusy, -⟩⟩ := hadv
  · exact hqueues
  · exact Bool.noConfusion (hfree'.symm.trans hbusy)
  · exact Bool.noConfusion (hfree.symm.trans hbusy)

end

/-! ### A byte that the consumer sees stays armed -/

/-- Without synchronisers the consumer sees what is queued. -/
theorem State.armedForBytes_iff {s : State} (hs : s.wf = true) (hS : s.cfg.S = 0) :
    s.armedForBytes ↔ (s.head ≠ s.tail → s.armed = true) := by
  constructor
  · intro harmed hne
    cases hh : s.head with
    | none =>
      obtain ⟨-, -, hcur, -⟩ := State.wf_iff.mp hs
      cases ht : s.tail with
      | none => exact absurd (hh.trans ht.symm) hne
      | some t => simp [State.cursorsOk, hh, ht] at hcur
    | some h =>
      obtain ⟨-, -, hcur, -⟩ := State.wf_iff.mp hs
      obtain ⟨-, t, ht, -⟩ := State.cursors_of_head hcur hh
      exact harmed h t (State.view_exact hh ht hS .c) fun he => hne (hh.trans (he ▸ ht.symm))
  · intro harmed h t hv hne
    obtain ⟨hh, ht⟩ := State.cursors_of_view hS hv
    exact harmed (by simpa [hh, ht] using hne)

theorem State.armedForBytes_of_sameBlock {s s' : State} (hsame : s.sameBlock s') (harmed : s.armedForBytes) :
    s'.armedForBytes := by
  rw [show s' = _ from hsame]
  exact harmed

/-- The edges and the device leave what is armed without synchronisers. -/
theorem edge_keeps_armedForBytes {s s' : State} (hS : s.cfg.S = 0) (harmed : s.armedForBytes)
    (hx : txDone s = .next s' ∨ syncH s = .next s' ∨ syncT s = .next s') : s'.armedForBytes := by
  obtain hx | hx | hx := hx
  · obtain ⟨-, rfl⟩ | ⟨-, b, -, rfl⟩ := txDone_next hx <;> exact harmed
  · exact syncH_keeps_armedForBytes harmed hx
  · rw [syncT_disabled (.inl hS)] at hx
    injection hx with hx
    exact hx ▸ harmed

/-- For every `S` a driver's step keeps a byte that the consumer sees armed (R40 e, R142 c). -/
theorem step_keeps_armedForBytes {s s' : State} (hs : s.wf = true) (harmed : s.armedForBytes)
    (hdriver : s.keepsToDriver) (hx : step s = .next s') : s'.armedForBytes := by
  by_cases hS : s.cfg.S = 0
  · have hsame : ∀ {u}, s.sameBlock u → u.wf = true ∧ u.cfg.S = 0 ∧ u.armedForBytes := fun hu =>
      ⟨(State.wf_of_sameBlock hu).trans hs, (State.SameRing.of_sameBlock hu).cfg ▸ hS,
        State.armedForBytes_of_sameBlock hu harmed⟩
    obtain ⟨hu, -⟩ | ⟨i, u, hi, hu, hx⟩ | ⟨-, u, hu, hx⟩ := step_cases_attempted hx <;>
      obtain ⟨huwf, huS, huarmed⟩ := hsame hu
    · exact huarmed
    · obtain ⟨-, -, -, hput⟩ := hdriver i hi
      obtain ⟨-, hcfg, -⟩ := exec_constants hx
      exact (State.armedForBytes_iff (exec_keeps_wf huwf hx) (hcfg ▸ huS)).mpr
        (bytesQueuedByEmitAreArmed u s' i huwf huS (hput hS) ((State.armedForBytes_iff huwf huS).mp huarmed) hx)
    · exact edge_keeps_armedForBytes huS huarmed hx
  · exact nonEmptyConsumerViewIsArmed s s' hs (by omega) harmed hx

end Sys2Proof.Machine
end

section
/-! SUPPORT. Delivery along a fair run (spec/42_cdc_sync.md R144, spec/70_reset_and_hazards.md R233): a queued byte
comes to be seen, what is seen is drained, what is drained is sent, and so the wire grows until it holds all. -/

namespace Sys2Proof.Machine

/-! ### Waiting for a byte to be seen -/

/-- A byte is queued, with `tail` at `t`, and the `k` youngest samples of `head` show it; the older ones need not. -/
structure State.AwaitsByte (s : State) (t k : Nat) : Prop where
  tail : s.tail = some t
  byte : s.queue ≠ []
  young : ∀ stage ∈ s.hs.take k, stage ≠ some (enc s.cfg.C t)

section
variable {s s' : State} {t k : Nat}

/-- A queue that is not empty lies between two different cursors. -/
theorem State.AwaitsByte.head_ne (hw : s.AwaitsByte t k) : ∃ h, s.head = some h ∧ h ≠ t := by
  cases hh : s.head with
  | none => exact absurd (by simp [State.queue, hh]) hw.byte
  | some h =>
    refine ⟨h, rfl, ?_⟩
    rintro rfl
    exact hw.byte (State.queue_nil hh hw.tail)

theorem State.exists_awaitsByte (hbyte : s.queue ≠ []) : ∃ t, s.AwaitsByte t 0 := by
  cases ht : s.tail with
  | none => exact absurd (by simp [State.queue, ht]) hbyte
  | some t => exact ⟨t, ht, hbyte, by simp⟩

/-- While nothing is taken, `tail` stays and the queue does not run empty. -/
theorem State.AwaitsByte.of_queues (hw : s.AwaitsByte t k) (hcfg : s'.cfg = s.cfg) (hq : s.Queues s')
    {j : Nat} (hyoung : ∀ stage ∈ s'.hs.take j, stage ≠ some (enc s.cfg.C t)) : s'.AwaitsByte t j := by
  obtain ⟨-, -, -, htail, hqueue⟩ := hq
  exact ⟨htail.trans hw.tail, fun hnil => hw.byte (List.prefix_nil.mp (hnil ▸ hqueue)), by rwa [hcfg]⟩

/-- A sample of `head` shows the byte that there is (R136). -/
theorem State.AwaitsByte.young_shiftIn (hs : s.wf = true) (hw : s.AwaitsByte t k) {h : Nat}
    (hh : s.head = some h) :
    ∀ stage ∈ (shiftIn (enc s.cfg.C h) s.hs).take (k + 1), stage ≠ some (enc s.cfg.C t) := by
  intro stage hmem
  obtain ⟨h', hh', hne⟩ := hw.head_ne
  obtain rfl : h' = h := Option.some.inj (hh'.symm.trans hh)
  obtain ⟨hhl, htl⟩ := State.cursors_lt hs hh hw.tail
  have hmem' := ((List.dropLast_prefix _).take (k + 1)).subset hmem
  rw [List.take_succ_cons] at hmem'
  obtain rfl | hmem' := List.mem_cons.mp hmem'
  · exact fun he => hne (enc_inj hhl htl (Option.some.inj he))
  · exact hw.young stage hmem'

/-- A step that leaves the register free leaves the samples that show the byte. -/
theorem State.AwaitsByte.advances (hs : s.wf = true) (hw : s.AwaitsByte t k) (hadv : s.Advances s')
    (hq : s.Queues s') : s'.AwaitsByte t k := by
  obtain ⟨hcfg, hhs, -⟩ := hadv
  refine hw.of_queues hcfg hq ?_
  obtain hhs | ⟨h, hh, hhs⟩ := hhs <;> rw [hhs]
  · exact hw.young
  · exact fun stage hmem => hw.young_shiftIn hs hh stage (List.take_subset_take_left _ (Nat.le_succ k) hmem)

/-- Once all the samples show it, the consumer sees the byte. -/
theorem State.AwaitsByte.seen (hs : s.wf = true) (hw : s.AwaitsByte t s.cfg.S) :
    ∃ a, s.view .c = .ok (a, t) ∧ a ≠ t := by
  obtain ⟨h, hh, hne⟩ := hw.head_ne
  by_cases hS : s.cfg.S = 0
  · exact ⟨h, State.view_exact hh hw.tail hS .c, hne⟩
  · obtain ⟨-, -, -, ⟨hhs, -⟩, -⟩ := State.wf_iff.mp hs
    obtain ⟨v, hseen, -⟩ := State.seenThrough_of_chainOk hh hS hhs
    obtain ⟨l, g, hl, hg⟩ := seenThrough_ok hseen
    obtain ⟨hlen, -⟩ := (State.chainOk_some hh).mp hhs
    refine ⟨v, State.view_c_seen hh hw.tail hS hseen, ?_⟩
    rintro rfl
    refine hw.young (some g) ?_ (by rw [enc_of_dec hg])
    rw [List.take_of_length_le hlen.le, hl]
    simp

/-- The step of SYNC_H's turn samples `head` (R136). -/
theorem step_samples_head {h : Nat} (hS : s.cfg.S ≠ 0) (hh : s.head = some h) (ht : s.tail = some t)
    (hturn : s.turn = .syncH) (hx : step s = .next s') : s'.hs = shiftIn (enc s.cfg.C h) s.hs := by
  unfold step State.takeStep at hx
  split at hx
  case isFalse => cases hx
  case isTrue =>
    rw [hturn, show s.advance = _ from State.sameBlock_advance s] at hx
    obtain ⟨hoff | hoff | hoff, -⟩ | ⟨h', t', old, new, -, hh', -, -, -, rfl⟩ := syncH_next hx
    · exact absurd hoff hS
    · cases hoff.symm.trans hh
    · cases hoff.symm.trans ht
    · obtain rfl : h' = h := Option.some.inj (hh'.symm.trans hh)
      split <;> rfl

end

/-! ### A fair driver's run -/

/-- What holds of every state of a driver's run, interrupts on. -/
structure State.Driven (s : State) : Prop where
  wf : s.wf = true
  ordered : s.ringOrdered = true
  armed : s.armedForBytes
  gie : s.gie = true

theorem State.Driven.of_sameBlock {s s' : State} (hs : s.Driven) (hsame : s.sameBlock s') : s'.Driven where
  wf := (State.wf_of_sameBlock hsame).trans hs.wf
  ordered := (State.ringOrdered_of_sameBlock hsame).trans hs.ordered
  armed := State.armedForBytes_of_sameBlock hsame hs.armed
  gie := by rw [show s' = _ from hsame]; exact hs.gie

theorem State.Driven.step {s s' : State} (hs : s.Driven) (hdriver : s.keepsToDriver) (hx : step s = .next s') :
    s'.Driven where
  wf := stepKeepsWellFormed s s' hs.wf hx
  ordered := stepKeepsTheRingOrder s s' hs.wf hs.ordered hx
  armed := step_keeps_armedForBytes hs.wf hs.armed hdriver hx
  gie := (noStepChangesGieOrTheInstance s s' hx).1.trans hs.gie

/-- A run that from `n` on is a driver's, fair to DRAIN, TX_DONE and SYNC_H. -/
structure DeliveryRun (r : Nat → State) (n : Nat) : Prop where
  run : IsRun r
  drain : FairDrain r
  device : FairTxDone r
  edge : FairSyncH r
  start : (r n).Driven
  driver : ∀ m, n ≤ m → (r m).keepsToDriver

section
variable {r : Nat → State} {n m : Nat}

theorem DeliveryRun.driven (hd : DeliveryRun r n) (hm : n ≤ m) : (r m).Driven := by
  induction m, hm using Nat.le_induction with
  | base => exact hd.start
  | succ m hm ih =>
    obtain ⟨s', hx, hin⟩ := hd.run m
    exact (ih.step (hd.driver m hm) hx).of_sameBlock (State.sameBlock_of_sameButInputs hin)

/-- Any later state may count as the start. -/
theorem DeliveryRun.later (hd : DeliveryRun r n) (hm : n ≤ m) : DeliveryRun r m :=
  { hd with start := hd.driven hm, driver := fun k hk => hd.driver k (by omega) }

theorem DeliveryRun.advances (hd : DeliveryRun r n) (hm : n ≤ m) : (r m).Advances (r (m + 1)) := by
  obtain ⟨s', hx, hin⟩ := hd.run m
  have hs := hd.driven hm
  have hadv := step_advances hs.wf hs.ordered (hd.driver m hm) hx
  exact hadv.before_sameBlock (State.sameBlock_of_sameButInputs hin)

theorem DeliveryRun.deliveries_prefix (hd : DeliveryRun r n) (hm : n ≤ m) :
    (r n).deliveries <+: (r m).deliveries := by
  induction m, hm using Nat.le_induction with
  | base => exact List.prefix_rfl
  | succ m hm ih => exact ih.trans (hd.advances hm).deliveries_prefix

theorem DeliveryRun.line_length_le (hd : DeliveryRun r n) (hm : n ≤ m) :
    (r n).line.length ≤ (r m).line.length := by
  induction m, hm using Nat.le_induction with
  | base => exact le_rfl
  | succ m hm ih => exact ih.trans (hd.advances hm).line_length_le

theorem DeliveryRun.cfg_eq (hd : DeliveryRun r n) (hm : n ≤ m) : (r m).cfg = (r n).cfg := by
  induction m, hm using Nat.le_induction with
  | base => rfl
  | succ m hm ih => exact (hd.advances hm).cfg_eq.trans ih

/-! ### A queued byte is handed over -/

section
variable {t k : Nat}

/-- As long as nothing is handed over, the samples that show the byte stay. -/
theorem DeliveryRun.awaitsByte (hd : DeliveryRun r n) (hidle : ∀ m, n ≤ m → (r m).txfree = true)
    (hw : (r n).AwaitsByte t k) (hm : n ≤ m) : (r m).AwaitsByte t k := by
  induction m, hm using Nat.le_induction with
  | base => exact hw
  | succ m hm ih =>
    have hadv := hd.advances hm
    exact ih.advances (hd.driven hm).wf hadv (hadv.queues (hidle m hm) (hidle (m + 1) (by omega)))

/-- Fairness brings one SYNC_H after another, each with a sample that shows the byte (R144, R233). -/
theorem DeliveryRun.awaitsByte_more (hd : DeliveryRun r n) (hidle : ∀ m, n ≤ m → (r m).txfree = true)
    (hS : (r n).cfg.S ≠ 0) (hw : (r n).AwaitsByte t k) : ∃ m, n ≤ m ∧ (r m).AwaitsByte t (k + 1) := by
  have henabled : ∀ m, n ≤ m → (r m).syncEnabled = true := by
    intro m hm
    have hw' := hd.awaitsByte hidle hw hm
    obtain ⟨h, hh, -⟩ := hw'.head_ne
    have hstages : 1 ≤ (r m).cfg.S := by rw [hd.cfg_eq hm]; omega
    simp [State.syncEnabled, hh, hw'.tail, hstages]
  obtain ⟨m, hm, hturn⟩ := hd.edge n henabled
  have hw' := hd.awaitsByte hidle hw hm
  have hadv := hd.advances hm
  have hq := hadv.queues (hidle m hm) (hidle (m + 1) (by omega))
  obtain ⟨h, hh, -⟩ := hw'.head_ne
  obtain ⟨s', hx, hin⟩ := hd.run m
  have hsample : (r (m + 1)).hs = shiftIn (enc (r m).cfg.C h) (r m).hs := by
    rw [(State.SameRing.of_sameBlock (State.sameBlock_of_sameButInputs hin)).hs]
    exact step_samples_head (hd.cfg_eq hm ▸ hS) hh hw'.tail hturn hx
  refine ⟨m + 1, by omega, hw'.of_queues hadv.cfg_eq hq ?_⟩
  rw [hsample]
  exact hw'.young_shiftIn (hd.driven hm).wf hh

theorem DeliveryRun.awaitsByte_all (hd : DeliveryRun r n) (hidle : ∀ m, n ≤ m → (r m).txfree = true)
    (hw : (r n).AwaitsByte t 0) (hk : k ≤ (r n).cfg.S) : ∃ m, n ≤ m ∧ (r m).AwaitsByte t k := by
  induction k with
  | zero => exact ⟨n, le_rfl, hw⟩
  | succ k ih =>
    obtain ⟨m, hm, hw'⟩ := ih (by omega)
    have hS : (r m).cfg.S ≠ 0 := by rw [hd.cfg_eq hm]; omega
    obtain ⟨m', hm', hmore⟩ := (hd.later hm).awaitsByte_more (fun j hj => hidle j (by omega)) hS hw'
    exact ⟨m', by omega, hmore⟩

end

/-- A byte that the consumer sees is drained, since what it sees is armed (R116, R142 c). -/
theorem DeliveryRun.drains {t : Nat} (hd : DeliveryRun r n) (hidle : ∀ m, n ≤ m → (r m).txfree = true)
    (hw : (r n).AwaitsByte t (r n).cfg.S) : ∃ m, n ≤ m ∧ (r m).txfree = false := by
  have hseen : ∀ m, n ≤ m → ∃ a, (r m).view .c = .ok (a, t) ∧ a ≠ t := fun m hm =>
    State.AwaitsByte.seen (hd.driven hm).wf (by rw [hd.cfg_eq hm]; exact hd.awaitsByte hidle hw hm)
  have hen : ∀ m, n ≤ m → (r m).drainEnabled = true := by
    intro m hm
    obtain ⟨a, hv, hne⟩ := hseen m hm
    exact State.drainEnabled_iff.mpr ⟨(hd.driven hm).armed a t hv hne, hidle m hm, (hd.driven hm).gie⟩
  obtain ⟨m, hm, hattempt⟩ := hd.drain n hen
  obtain ⟨s', hx, hin⟩ := hd.run m
  obtain ⟨u, hu, hdrain⟩ := step_drains hattempt (hen m hm) hx
  obtain ⟨a, hv, hne⟩ := hseen m hm
  have hs := (hd.driven hm).of_sameBlock hu
  have hen' : u.drainEnabled = true := (State.drainEnabled_of_sameBlock hu).trans (hen m hm)
  have hv' : u.view .c = .ok (a, t) := ((State.SameRing.of_sameBlock hu).view .c).trans hv
  obtain ⟨-, hbusy, -⟩ := exec_drain_hands_over hs.wf hs.ordered hen' hv' hne hdrain
  refine ⟨m + 1, by omega, ?_⟩
  rw [show r (m + 1) = _ from State.sameBlock_of_sameButInputs hin]
  exact hbusy

/-- A queue that is not empty does not leave the device idle for ever. -/
theorem DeliveryRun.not_idle (hd : DeliveryRun r n) (hbyte : (r n).queue ≠ []) :
    ∃ m, n ≤ m ∧ (r m).txfree = false := by
  by_contra hnone
  have hidle : ∀ m, n ≤ m → (r m).txfree = true :=
    fun m hm => eq_true_of_ne_false fun hbusy => hnone ⟨m, hm, hbusy⟩
  obtain ⟨t, hw⟩ := State.exists_awaitsByte hbyte
  obtain ⟨m, hm, hw'⟩ := hd.awaitsByte_all hidle hw le_rfl
  rw [← hd.cfg_eq hm] at hw'
  obtain ⟨m', hm', hbusy⟩ := (hd.later hm).drains (fun j hj => hidle j (by omega)) hw'
  exact hnone ⟨m', by omega, hbusy⟩

/-! ### The wire grows -/

/-- The byte in flight reaches the wire (R164). -/
theorem DeliveryRun.line_grows_of_busy (hd : DeliveryRun r n) (hbusy : (r n).txfree = false) :
    ∃ m, n ≤ m ∧ (r n).line.length < (r m).line.length := by
  obtain ⟨-, -, -, -, hfree | hreg⟩ := State.wf_iff.mp hd.start.wf
  · exact Bool.noConfusion (hfree.symm.trans hbusy)
  · obtain ⟨b, hb⟩ := Option.isSome_iff_exists.mp hreg
    obtain ⟨m, hm, hsent⟩ := hd.run.sends hd.device ⟨hbusy, hb, rfl⟩
    exact ⟨m, hm.le, by simp [hsent.line]⟩

/-- As long as a byte is owed to it, the wire grows. -/
theorem DeliveryRun.line_grows (hd : DeliveryRun r n) (howed : (r n).owed ≠ []) :
    ∃ m, n ≤ m ∧ (r n).line.length < (r m).line.length := by
  obtain ⟨k, hk, hbusy⟩ : ∃ k, n ≤ k ∧ (r k).txfree = false := by
    cases hfree : (r n).txfree with
    | false => exact ⟨n, le_rfl, hfree⟩
    | true => exact hd.not_idle (by simpa [State.owed, hfree] using howed)
  obtain ⟨m, hm, hgrown⟩ := (hd.later hk).line_grows_of_busy hbusy
  exact ⟨m, by omega, lt_of_le_of_lt (hd.line_length_le hk) hgrown⟩

/-- The wire comes to hold as many bytes as it held and was owed. -/
theorem DeliveryRun.line_reaches (hd : DeliveryRun r n) {k : Nat} (hk : k ≤ (r n).deliveries.length) :
    ∃ m, n ≤ m ∧ k ≤ (r m).line.length := by
  induction k with
  | zero => exact ⟨n, le_rfl, Nat.zero_le _⟩
  | succ k ih =>
    obtain ⟨m, hm, hlen⟩ := ih (by omega)
    by_cases howed : (r m).owed = []
    · have hle := (hd.deliveries_prefix hm).length_le
      have hall : (r m).deliveries.length = (r m).line.length := by simp [State.deliveries, howed]
      exact ⟨m, hm, by omega⟩
    · obtain ⟨m', hm', hgrown⟩ := (hd.later hm).line_grows howed
      exact ⟨m', by omega, by omega⟩

end

/-- Settles O56: the wire then, and the wire and what it was owed at first, are both beginnings of the same
deliveries, and the wire comes to be the longer of the two. -/
theorem fairRunsDeliverEveryByte : Obligations.FairRunsDeliverEveryByte := by
  intro r n hr hdrain hdevice hedge hs hord _ harmed hgie hdriver
  have hd : DeliveryRun r n := ⟨hr, hdrain, hdevice, hedge, ⟨hs, hord, harmed, hgie⟩, hdriver⟩
  obtain ⟨m, hm, hlen⟩ := hd.line_reaches le_rfl
  obtain ⟨rest, hrest⟩ : (r n).deliveries <+: (r m).line.map some :=
    List.prefix_of_prefix_length_le (hd.deliveries_prefix hm) (r m).line_prefix_deliveries
      (by rwa [List.length_map])
  exact ⟨m, rest, hm, hrest.symm⟩

end Sys2Proof.Machine
end

section
/-! SUPPORT. The capacities that no instance may have (spec/00_scope.md R7, spec/42_cdc_sync.md R131): the check of
the instance comes before the port's and before any turn, and refuses them (log 12). -/

namespace Sys2Proof.Machine

/-- The instances not admitted: no slot at all, or synchronisers and an odd capacity. -/
theorem validInstance_eq_false_iff {c : Config} :
    validInstance c = false ↔ c.C = 0 ∨ (1 ≤ c.S ∧ c.C % 2 = 1) := by
  simp only [validInstance, Bool.and_eq_false_iff, Bool.or_eq_false_iff, decide_eq_false_iff_not,
    beq_eq_false_iff_ne]
  omega

theorem State.onPort_badCapacity {s : State} {i : Instr} {rule : Result} (hc : validInstance s.cfg = false) :
    s.onPort i rule = .refused .badCapacity :=
  if_neg (Bool.eq_false_iff.mp hc)

/-- Every command has its rule under `onPort`, whose first check is the instance. -/
theorem exec_badCapacity {s : State} {i : Instr} (hc : validInstance s.cfg = false) :
    exec i s = .refused .badCapacity := by
  cases i <;> exact State.onPort_badCapacity hc

theorem step_badCapacity {s : State} (hc : validInstance s.cfg = false) : step s = .refused .badCapacity :=
  if_neg (Bool.eq_false_iff.mp hc)

/-- Settles O11: such an instance is not admitted, which `exec` and `step` both check first. -/
theorem badCapacityIsRefused : Obligations.BadCapacityIsRefused := by
  intro s i hbad
  have hc : validInstance s.cfg = false := validInstance_eq_false_iff.mpr hbad
  exact ⟨exec_badCapacity hc, step_badCapacity hc⟩

end Sys2Proof.Machine
end
